-- ==== Sys2Proof/Word.lean ====
section
/-! DEFINITION. The word types of the OWU engine: symbols, bytes, link identities, the event word, and
8-byte identities (00_scope.md R7, R11; 30_encoding.md R95, R104). -/

namespace Sys2Proof

/-- One byte (R11: bit 0 is the least significant bit). -/
abbrev Byte := BitVec 8

/-- One UART symbol: `SYM_W` = 8 bits, fixed (R7). -/
abbrev Symbol := BitVec 8

/-- A link identity of `LINK_W` bits. DESIGN CHOICE (log entry 5): `LINK_W` = 8, the default of R7. -/
abbrev Link := BitVec 8

/-- The event word `EVT` of `1 + LINK_W` bits (R104). -/
abbrev EvtWord := BitVec 9

/-- An 8-byte identity, byte 0 the family byte (R62, R64). -/
abbrev Rom := Vector Byte 8

/-- A word and the port it is presented on: the command port takes 8-bit command words (R95), the event
port takes event words (R104). -/
inductive PortWord where
  | cmd (w : Byte)
  | evt (w : EvtWord)
  deriving DecidableEq, Repr

end Sys2Proof
end

