-- ==== Sys2Proof/Syntax.lean ====
section
/-! DEFINITION. The instruction set: one constructor per row of spec/opcode_table.json, the eight commands
of 30_encoding.md R96 and the two events of R104. -/

namespace Sys2Proof

/-- The commands and events of the block. `b` is `imm[0]`; `n` is the count `imm` (R97); `link` is the
identity an event carries (R104). Operands in operand registers (`LINK_IN`, `DATA_IN`, `ADDR_IN`) are state. -/
inductive Instr where
  | init
  | writeBit (b : Bool)
  | writeByte
  | writeAddr (n : Nat)
  | readIssue (n : Nat)
  | readBit
  | reset
  | searchNext
  | rxComplete (link : Link)
  | txComplete (link : Link)
  deriving DecidableEq, Repr

/-- The commands are what the polling context issues; the two events are not commands (R96, R104). -/
def Instr.isCommand : Instr → Bool
  | .init => true
  | .writeBit _ => true
  | .writeByte => true
  | .writeAddr _ => true
  | .readIssue _ => true
  | .readBit => true
  | .reset => true
  | .searchNext => true
  | .rxComplete _ => false
  | .txComplete _ => false

end Sys2Proof
end

