-- ==== Sys2Proof/WellFormed.lean ====
section
/-! DEFINITION. Which instructions have an encoding: the counts of format `FN` are 1 to 8 (30_encoding.md
R97, R107). -/

namespace Sys2Proof

/-- A legal count of `WRITE_ADDR` (1 to `N_ADDR_MAX`) or `READ_ISSUE` (1 to `N_RX_MAX`), both bounds 8 (R66, R107). -/
def legalCount (n : Nat) : Bool := 1 ≤ n && n ≤ 8

/-- Every instruction but a count out of range is well formed; every event word is legal (R104). -/
def Instr.wf : Instr → Bool
  | .init => true
  | .writeBit _ => true
  | .writeByte => true
  | .writeAddr n => legalCount n
  | .readIssue n => legalCount n
  | .readBit => true
  | .reset => true
  | .searchNext => true
  | .rxComplete _ => true
  | .txComplete _ => true

end Sys2Proof
end

