-- ==== Sys2Proof/Decode.lean ====
section
/-! DEFINITION. Decoding the command word and the event word, and the encoder, both written from the tables of
30_encoding.md R95 to R98, R104, R106, R107. -/

namespace Sys2Proof

/-- Why a command word is refused: a reserved opcode (R106) or a reserved immediate (R107). Both are the
refusal `IllegalCommand` of the block. -/
inductive DecodeError where
  | reservedOpcode
  | reservedImmediate
  deriving DecidableEq, Repr

/-- Opcode `op = CMD[7:4]` (R95). -/
def cmdOp (w : Byte) : BitVec 4 := w.extractLsb' 4 4

/-- Immediate `imm = CMD[3:0]` (R95). -/
def cmdImm (w : Byte) : BitVec 4 := w.extractLsb' 0 4

/-- Format `F0`: `imm` must be 0000 (R97). -/
def formatF0 (imm : BitVec 4) (i : Instr) : Except DecodeError Instr :=
  if imm = 0#4 then .ok i else .error .reservedImmediate

/-- Format `FB`: `imm[0]` is the bit, `imm[3:1]` must be 000 (R97). -/
def formatFB (imm : BitVec 4) (f : Bool → Instr) : Except DecodeError Instr :=
  if imm.extractLsb' 1 3 = 0#3 then .ok (f (imm.getLsbD 0)) else .error .reservedImmediate

/-- Format `FN`: `imm` is the count as is; only 1 to 8 are legal (R97, R107). -/
def formatFN (imm : BitVec 4) (f : Nat → Instr) : Except DecodeError Instr :=
  if legalCount imm.toNat then .ok (f imm.toNat) else .error .reservedImmediate

/-- The command decoder: the opcode first, then the immediate against the command's format (R98). Total: every
8-bit word is one command of R96 or reserved. -/
def decodeCommand (w : Byte) : Except DecodeError Instr :=
  if cmdOp w = 0x1#4 then formatF0 (cmdImm w) .init
  else if cmdOp w = 0x2#4 then formatFB (cmdImm w) .writeBit
  else if cmdOp w = 0x3#4 then formatF0 (cmdImm w) .writeByte
  else if cmdOp w = 0x4#4 then formatFN (cmdImm w) .writeAddr
  else if cmdOp w = 0x5#4 then formatFN (cmdImm w) .readIssue
  else if cmdOp w = 0x6#4 then formatF0 (cmdImm w) .readBit
  else if cmdOp w = 0x7#4 then formatF0 (cmdImm w) .reset
  else if cmdOp w = 0x8#4 then formatF0 (cmdImm w) .searchNext
  else .error .reservedOpcode

/-- `EVT[LINK_W:1]`, the identity the event carries (R104). -/
def evtLink (w : EvtWord) : Link := w.extractLsb' 1 8

/-- The event decoder: `EVT[0]` = 0 is `RX_COMPLETE`, 1 is `TX_COMPLETE`; every event word is legal (R104). -/
def decodeEvent (w : EvtWord) : Instr :=
  if w.getLsbD 0 then .txComplete (evtLink w) else .rxComplete (evtLink w)

/-- The decoder of a word on its port. -/
def decode : PortWord → Except DecodeError Instr
  | .cmd w => decodeCommand w
  | .evt w => .ok (decodeEvent w)

/-- The event word of a link and a selector bit (R104). -/
def evtWord (link : Link) (sel : BitVec 1) : EvtWord := link ++ sel

/-- The encoder, from the patterns of R96 and R104. A count of 16 or more has no word, since `imm` has 4 bits (R97);
the encoder keeps its low 4 bits there, and the assembler refuses such a line (log entry 34). -/
def encode : Instr → PortWord
  | .init => .cmd 0x10#8
  | .writeBit b => .cmd (0x20#8 ||| BitVec.setWidth 8 (BitVec.ofBool b))
  | .writeByte => .cmd 0x30#8
  | .writeAddr n => .cmd (0x40#8 ||| BitVec.setWidth 8 (BitVec.ofNat 4 n))
  | .readIssue n => .cmd (0x50#8 ||| BitVec.setWidth 8 (BitVec.ofNat 4 n))
  | .readBit => .cmd 0x60#8
  | .reset => .cmd 0x70#8
  | .searchNext => .cmd 0x80#8
  | .rxComplete link => .evt (evtWord link 0#1)
  | .txComplete link => .evt (evtWord link 1#1)

/-- Which port a row of spec/opcode_table.json names, for a word of `nbits` bits numbered as the table numbers
them. A command word has 8 bits. An event word has 9, and the table gives its width as a formula; an 8-bit number
whose high nibble is 0 is no command (R106), so it is read as an event word with its top bit 0.
DESIGN CHOICE (log entry 14): the machine itself never uses this rule, since its two ports are apart. -/
def tablePort (nbits w : Nat) : Option PortWord :=
  if nbits ≤ 8 then
    if w < 16 then some (.evt (BitVec.ofNat 9 w))
    else if w < 256 then some (.cmd (BitVec.ofNat 8 w))
    else none
  else if w < 512 then some (.evt (BitVec.ofNat 9 w))
  else none

/-- The instruction the decoder reads from a table word; none where it refuses. -/
def decodeTableWord (nbits w : Nat) : Option Instr :=
  match tablePort nbits w with
  | none => none
  | some p =>
    match decode p with
    | .ok i => some i
    | .error _ => none

end Sys2Proof
end

