-- ==== Sys2Proof/Config.lean ====
section
/-! DEFINITION. What the outside fixes and what the spec leaves open: the two link timings, the wire history that
the bus oracle sees, the turns of the schedule, and the free values as opaque constants with no body
(00_scope.md R12 `UNSPEC`; 20_memory.md R72; 93_implementation_defined.md U7 to U10, U13). -/

namespace Sys2Proof

/-- The two link timings: `RESET_RATE` is the slower one, `DATA_RATE` the one of the data slots (R26). -/
inductive Timing where
  | resetRate
  | dataRate
  deriving DecidableEq, Repr, Inhabited

/-- An entry of the event history `wire` (R42). -/
inductive WireEvent where
  /-- `WReset(sent, echo)`: a reset exchange and its answer. -/
  | wReset (sent : Symbol) (echo : Option Symbol)
  /-- `WTx(timing, symbols)`: a transmit that completed. -/
  | wTx (timing : Timing) (symbols : List Symbol)
  /-- `WRx(timing, symbols)`: a receive that completed. -/
  | wRx (timing : Timing) (symbols : List Symbol)
  deriving DecidableEq, Repr

/-- Whose move comes next (R10, R45). -/
inductive Turn where
  /-- The polling context: the sequencer while a command runs, else the host (R284). -/
  | polling
  /-- The link transmitter performs an issued transmit (R138). -/
  | linkTx
  /-- The link receiver performs an issued receive (R139). -/
  | linkRx
  /-- The pending `TX_COMPLETE` is delivered (R218). -/
  | txEvent
  /-- The pending `RX_COMPLETE` is delivered (R218). -/
  | rxEvent
  /-- An event word that no transfer of this block caused: the handler serves another link, or passes a wrong
  identity, or stores 1 over 1 (R217, R288, R289). -/
  | event (w : EvtWord)
  /-- The host's monotonic tick advances (R231, R240). -/
  | tick
  deriving DecidableEq, Repr, Inhabited

/-- FREE VALUE (log entry 3): whose turn it is when the schedule in State lists none. Opaque: no proof sees it. -/
opaque Config.freeTurn : Nat → Turn

/-- FREE VALUE (U7, log entry 10): `timing` right after `INIT`. -/
opaque Config.freeTiming : Nat → Timing

/-- FREE VALUE (U8, R27, log entry 11): an unspecified symbol of `tx_buf`, by draw and index. -/
opaque Config.freeTxSymbol : Nat → Nat → Symbol

/-- FREE VALUE (U8, R70, log entry 11): an unspecified symbol of `rx_buf`, by draw and index. -/
opaque Config.freeRxSymbol : Nat → Nat → Symbol

/-- FREE VALUE (U9, log entry 12): `R_ROM` after a false return through absence or conflict, by draw and byte. -/
opaque Config.freeResultByte : Nat → Nat → Byte

/-- FREE VALUE (U9, log entry 12): `last_rom` after a conflict, by draw and byte. -/
opaque Config.freeLastRomByte : Nat → Nat → Byte

/-- FREE VALUE (U10, R72, log entry 6): the unconstrained oracle's answer to a reset exchange, a function of the
whole wire history. -/
opaque Config.resetEcho : List WireEvent → Option Symbol

/-- FREE VALUE (U10, R72, log entry 6): symbol `k` of the unconstrained oracle's answer to a receive of `n`
symbols, a function of the whole wire history. -/
opaque Config.readSymbol : List WireEvent → Nat → Nat → Symbol

/-- FREE VALUE (N14, log entry 29): the default alarm thresholds (high, low) that `SetPrecision` writes. -/
opaque Config.alarmThresholds : Byte × Byte

end Sys2Proof
end

