-- ==== Sys2Proof/Machine/Params.lean ====
section
/-! DEFINITION. The implementation parameters (00_scope.md R7, R8; 46_host_clients.md R240, R244, R245, R248) with
the spec's defaults. They are arguments of the model, not machine state: State carries them because the host's
interface gives a step no other argument, and no step changes them (log entry 4). -/

namespace Sys2Proof.Machine

/-- `ERROR_POLICY` (R245, D34): the source leaves open whether a device in `Error` restarts by itself. -/
inductive ErrorPolicy where
  /-- Mandatory external re-initiation, the default. -/
  | externalRestart
  /-- Automatic retry once `cooldown` ticks have passed since the last conversion was started. -/
  | retryAfter (cooldown : Nat)
  deriving DecidableEq, Repr

/-- The parameters. The first six are the block's (R7), the rest the host model's (R240, R244, R245, R248). -/
structure Params where
  /-- `SYM_IDLE`, also the symbol of a logical 1. -/
  symIdle : Symbol
  /-- `SYM_ZERO`, the dominant symbol. -/
  symZero : Symbol
  /-- `SYM_RESET`, the reset symbol. -/
  symReset : Symbol
  /-- `CMD_SEARCH_ROM`, the command byte that starts a search. -/
  cmdSearchRom : Byte
  /-- `BAUD_RESET`. -/
  baudReset : Nat
  /-- `BAUD_DATA`. -/
  baudData : Nat
  /-- `CMD_MATCH_ROM` (R248). -/
  cmdMatchRom : Byte
  /-- `CMD_SKIP_ROM` (R248); no rule of the host sends it (log entry 28). -/
  cmdSkipRom : Byte
  /-- `CMD_CONVERT_T` (R248). -/
  cmdConvertT : Byte
  /-- `CMD_READ_SCRATCHPAD` (R248). -/
  cmdReadScratchpad : Byte
  /-- `CMD_WRITE_SCRATCHPAD` (R248). -/
  cmdWriteScratchpad : Byte
  /-- `CMD_COPY_SCRATCHPAD` (R248). -/
  cmdCopyScratchpad : Byte
  /-- The DS18B20 family byte, byte 0 of an identity (R248); no rule tests it (R196, log entry 28). -/
  familyByte : Byte
  /-- The 750 ms conversion wait in host ticks (R240; the tick period is not given, N13). -/
  convTicks : Nat
  /-- `HOST_RECLAIM` (R244). -/
  hostReclaim : Bool
  /-- `ERROR_POLICY` (R245). -/
  errorPolicy : ErrorPolicy
  deriving DecidableEq, Repr

/-- The constraints of R8: a written 0 and a written 1 differ, and the reset timing is the slower one. -/
def paramsOk (p : Params) : Bool := p.symZero != p.symIdle && p.baudReset < p.baudData

/-- The spec's defaults (R7, R244, R245, R248). PRESUMED (log entry 4): the spec takes the symbols, speeds and
command bytes from general knowledge. -/
def defaultParams : Params where
  symIdle := 0xFF#8
  symZero := 0x00#8
  symReset := 0xF0#8
  cmdSearchRom := 0xF0#8
  baudReset := 9600
  baudData := 115200
  cmdMatchRom := 0x55#8
  cmdSkipRom := 0xCC#8
  cmdConvertT := 0x44#8
  cmdReadScratchpad := 0xBE#8
  cmdWriteScratchpad := 0x4E#8
  cmdCopyScratchpad := 0x48#8
  familyByte := 0x28#8
  convTicks := 750
  hostReclaim := false
  errorPolicy := .externalRestart

/-- The link speed each timing stands for (R124, R7). -/
def baudOf (p : Params) : Timing → Nat
  | .resetRate => p.baudReset
  | .dataRate => p.baudData

end Sys2Proof.Machine
end

