-- ==== Sys2Proof/Machine/State.lean ====
section
/-! DEFINITION. The state of one OWU engine (10_state.md R20 to R44) with its link agents, its bus, its host and the
schedule, as plain data; the reasons of the spec's sticky `fault` mark; the reasons a step could stop; and the state
right after power-on. -/

namespace Sys2Proof.Machine

/-- Codes of `R_PRESENCE` (30_encoding.md R94). -/
inductive Presence where
  /-- `P_OK` = 0: presence confirmed. -/
  | ok
  /-- `P_TIMEOUT` = 1: no response, DOC's `BusAbsent`. -/
  | timeout
  /-- `P_NO_CHANGE` = 2: echo identical to the transmission, DOC's `BusAmbiguous`. -/
  | noChange
  deriving DecidableEq, Repr

/-- The values of the sequencer register `seq` (R40; 43_rom_search.md R186). -/
inductive Phase where
  | idle
  | rbWait
  | rsWait
  | sReset
  | sCmd
  | sIdIssue
  | sIdRx
  | sCmpIssue
  | sCmpRx
  | sDecide
  | sDir
  | sFinish
  deriving DecidableEq, Repr

/-- The spec's fault and refusal reasons, what the mark `fault` records (60_exceptions.md R272 to R276). -/
inductive Reason where
  /-- Fault: a command that touches the link while a completion flag is 0 (R273). -/
  | transportBusy
  /-- Fault: a data transfer while `timing` is not `DATA_RATE` (R274). -/
  | timingViolation
  /-- Fault: a read of `RX_BIT` or `RX_BYTE` that is not valid (R275). -/
  | rxViewInvalid
  /-- Refusal: a reserved command word (R106, R107). -/
  | illegalCommand
  /-- Refusal: a command or a status read before `INIT` (R108, R219). -/
  | notInitialised
  /-- Refusal: a command whose operand register was never written (R108). -/
  | operandUnwritten
  /-- Refusal: `INIT` while a transfer is outstanding (R213). -/
  | initWhileBusy
  deriving DecidableEq, Repr

/-- The status views and result registers a host reads (R35, R37, R219). -/
inductive View where
  | flags
  | rxBit
  | rxByte
  | rOk
  | rBit
  | rPresence
  | rRom
  deriving DecidableEq, Repr

/-- What a read gives. -/
inductive ViewValue where
  /-- `FLAGS`: bit 0 = `tx_done`, bit 1 = `rx_done` (R37). -/
  | flags (v : BitVec 2)
  | bit (b : Bool)
  | byte (v : Byte)
  /-- The 2-bit code of `R_PRESENCE` (R94). -/
  | presence (code : BitVec 2)
  | rom (r : Rom)
  deriving DecidableEq, Repr

/-- One operation of the host in the polling context: the block's own port operations (R36, R95, R219), the
pseudo-commands that loop (R111), and the host agents of 46_host_clients.md with the continuations their
blocking calls need (log entries 7, 26). -/
inductive HostOp where
  /-- `LINK_IN <- v`. -/
  | setLinkIn (v : Link)
  /-- `LINK_IN <- bound_link`, the operand of `SEARCH_RESTART` (R111). -/
  | setLinkInBound
  /-- `DATA_IN <- v`. -/
  | setDataIn (v : Byte)
  /-- `ADDR_IN[j] <- v`. -/
  | setAddrIn (j : Fin 8) (v : Byte)
  /-- Presents `CMD` on the command port. -/
  | command (w : Byte)
  /-- A status or result read. -/
  | read (v : View)
  /-- `WAIT_IDLE`: repeat `FLAGS?` until `0b11`. -/
  | waitIdle
  /-- The test at the end of one round of `SEARCH_ALL`. -/
  | searchLoop
  /-- `Measure(device)` (R233). -/
  | measure (d : Nat)
  /-- `Poll(device)` (R234). -/
  | poll (d : Nat)
  /-- The rest of a `Poll` in `Reset` or `Reset2`, once the command `RESET` has returned (R238). -/
  | pollResetDone (d : Nat)
  /-- The rest of a `Poll` in `StartConversion`, once the command `WRITE_BYTE CMD_CONVERT_T` has returned (R237,
  R239). -/
  | pollConvertDone (d : Nat)
  /-- The caller sets up one more Device Context, in the initial state `Idle` (R231, R235; log entry 27). -/
  | newDevice
  /-- The application restarts a device in `Error` (R245). -/
  | restart (d : Nat)
  /-- `SearchNext(device_out)` (R249). -/
  | searchNext (d : Nat)
  /-- The rest of `SearchNext`, once the command `SEARCH_NEXT` has returned (R249). -/
  | searchNextDone (d : Nat)
  /-- `SetPrecision(device, bits)` (R246). -/
  | setPrecision (d : Nat) (bits : Nat)
  /-- A synchronous routine's end of its own reset: the outcome is copied into the device's `presence` (R231), and on
  a bus error the routine returns false and drops its other `rest` operations (R246, R270). -/
  | needPresence (d : Nat) (rest : Nat)
  /-- The test at the end of one blocking bit read of `SetPrecision`: it reads again until the bit is 1, and then the
  routine returns true (R246; log entry 29). -/
  | copyLoop
  deriving DecidableEq, Repr

/-- The states of the device state machine (R235). -/
inductive DevState where
  | idle
  | waitAccess
  | reset
  | matchRom
  | sendAddress
  | startConversion
  | waitConversion
  | reset2
  | matchRom2
  | sendAddress2
  | read
  | readLsb
  | readMsb
  | calculate
  | error
  deriving DecidableEq, Repr

/-- The Device Context of one sensor (R231). -/
structure Device where
  address : Rom
  /-- In sixteenths of a degree Celsius (R231, R247). -/
  temperature : Int
  lsb : Byte
  msb : Byte
  presence : Presence
  state : DevState
  lastConv : Nat
  deriving DecidableEq, Repr

/-- The host's own state (R231, R232) and what its calls returned (log entry 27). -/
structure Clients where
  /-- The Bus Arbiter's `owner` (R232). -/
  owner : Option Nat
  devices : List Device
  /-- The monotonic tick. -/
  now : Nat
  /-- What each `HostOp.read` gave, oldest first. -/
  seen : List ViewValue
  /-- The identities a `SEARCH_ALL` collected, oldest first. -/
  found : List Rom
  /-- What the last administrative call returned. -/
  ret : Option Bool
  deriving DecidableEq, Repr

/-- Which oracle answers for the bus (20_memory.md R72; 95_test_vectors.md 2.0; log entry 6). -/
inductive Bus where
  /-- The unconstrained oracle of R72: free values of the wire history. -/
  | unconstrained
  /-- The scripted oracle: answers consumed in order; when they run out, the unconstrained one answers. -/
  | scripted (echoes : List (Option Symbol)) (slots : List Symbol)
  /-- The reference wired-AND oracle over a fixed set of devices. -/
  | wiredAnd (devices : List Rom)
  deriving DecidableEq, Repr

/-- The machine. The first block is the table of R20, then the events pending in the link agents (R29), then what
R45 calls parameters of the step relation, held here as plain data (log entries 3, 4, 6, 7), and the model's own
counter of free values (log entry 13). -/
structure State where
  inited : Bool
  /-- No value before `INIT` (R22). -/
  boundLink : Option Link
  /-- 1 means no transmit is outstanding (R23). -/
  txDone : Bool
  /-- 1 means no receive is outstanding (R24). -/
  rxDone : Bool
  timing : Timing
  txBuf : Vector Symbol 64
  txLen : Nat
  rxBuf : Vector Symbol 8
  rxLen : Nat
  txInflight : Option Nat
  rxInflight : Option Nat
  lastDiscrepancy : Nat
  lastDeviceFlag : Bool
  lastRom : Rom
  rOk : Bool
  rBit : Bool
  rPresence : Presence
  rRom : Rom
  /-- None until the host writes it (R36, R108; log entry 9). -/
  linkIn : Option Link
  /-- None until the host writes it (R36, R108; log entry 9). -/
  dataIn : Option Byte
  /-- Each byte none until the host writes it (R36, R108; log entry 9). -/
  addrIn : Vector (Option Byte) 8
  seq : Phase
  /-- The identity bit index `i` of a search (R41). -/
  i : Nat
  lastZero : Nat
  romWork : Rom
  idB : Bool
  cmpB : Bool
  dir : Bool
  wire : List WireEvent
  /-- The first fault or refusal reason raised, never cleared (R43). -/
  fault : Option Reason
  /-- The link identity of a `TX_COMPLETE` not yet delivered (R29, R138). -/
  txPending : Option Link
  /-- The link identity of an `RX_COMPLETE` not yet delivered (R29, R139). -/
  rxPending : Option Link
  /-- What the host has still to do, oldest first. -/
  program : List HostOp
  clients : Clients
  bus : Bus
  /-- The schedule: whose turn each coming step is. -/
  turns : List Turn
  params : Params
  /-- How many free values have been drawn. -/
  draws : Nat
  deriving DecidableEq, Repr

/-- Why the machine stops with a fault. The spec's own faults are not here: they leave a next state with the mark
`fault` set (log entry 1). -/
inductive Fault where
  /-- Raised by the meaning of a command handed to `exec`, and by a command word presented, while `seq` is not
  `IDLE`. R95 says this cannot occur and D28 puts a second polling thread outside the model; no step of the machine
  raises it. Safe: the machine stops (log entry 2). -/
  | commandWhileRunning
  deriving DecidableEq, Repr

/-- Why an instruction has no meaning. -/
inductive Refusal where
  /-- Raised by no arm of `exec`, since every instruction has its meaning. Safe: the machine stops. -/
  | notModelled (mnemonic : String)
  deriving DecidableEq, Repr

/-- The outcome of a meaning or a step. -/
abbrev Result := Host.Outcome State Fault Refusal

/-- Eight bytes of zero. -/
def zeroRom : Rom := Vector.replicate 8 0#8

/-- Power-on (R44, R300): `inited` = 0, no link bound, no operand written, `wire` empty, `fault` none. The spec
gives no other register a value; the values here are DESIGN CHOICE (log entry 8). -/
def State.reset : State where
  inited := false
  boundLink := none
  txDone := true
  rxDone := true
  timing := .resetRate
  txBuf := Vector.replicate 64 0#8
  txLen := 0
  rxBuf := Vector.replicate 8 0#8
  rxLen := 0
  txInflight := none
  rxInflight := none
  lastDiscrepancy := 0
  lastDeviceFlag := false
  lastRom := zeroRom
  rOk := false
  rBit := false
  rPresence := .timeout
  rRom := zeroRom
  linkIn := none
  dataIn := none
  addrIn := Vector.replicate 8 none
  seq := .idle
  i := 0
  lastZero := 0
  romWork := zeroRom
  idB := false
  cmpB := false
  dir := false
  wire := []
  fault := none
  txPending := none
  rxPending := none
  program := []
  clients :=
    { owner := none, devices := [], now := 0, seen := [], found := [], ret := none }
  bus := .unconstrained
  turns := []
  params := defaultParams
  draws := 0

end Sys2Proof.Machine
end

