-- ==== Sys2Proof/Machine/Flags.lean ====
section
/-! DEFINITION. The flags: the idle predicate, the `FLAGS` view, the checks a command makes before its effect and
their order (10_state.md R23 to R30, R37; 40_symbol_transport.md R125, R126; 60_exceptions.md R282). -/

namespace Sys2Proof.Machine

/-- `idle()`: both completion flags are 1 (R30). -/
def isIdle (s : State) : Bool := s.txDone && s.rxDone

/-- `FLAGS`: bit 0 = `tx_done`, bit 1 = `rx_done` (R37). -/
def flagsOf (s : State) : BitVec 2 := BitVec.ofBool s.rxDone ++ BitVec.ofBool s.txDone

/-- The 2-bit code of a presence outcome (R94). -/
def presenceCode : Presence → BitVec 2
  | .ok => 0#2
  | .timeout => 1#2
  | .noChange => 2#2

/-- A check and the reason reported when it fails. -/
abbrev Check := Bool × Reason

/-- `NotInitialised` (R108, R125). -/
def checkInited (s : State) : Check := (s.inited, .notInitialised)

/-- `TransportBusy` (R125, R273). -/
def checkIdle (s : State) : Check := (isIdle s, .transportBusy)

/-- `TimingViolation`, the data-rate precondition (R126, R274). -/
def checkDataRate (s : State) : Check := (s.timing == .dataRate, .timingViolation)

/-- The first check that fails is the one reported (R282). -/
def firstViolation : List Check → Option Reason
  | [] => none
  | (true, _) :: rest => firstViolation rest
  | (false, r) :: _ => some r

end Sys2Proof.Machine
end

