-- ==== Sys2Proof/Machine/Operands.lean ====
section
/-! DEFINITION. Operands and codes: the symbol code (40_symbol_transport.md R121 to R123), the order of bits, bytes
and symbols and the identity bit map (20_memory.md R61 to R64), and the operand registers (10_state.md R36). -/

namespace Sys2Proof.Machine

/-- `encode_bit` (R121). -/
def encodeBit (p : Params) (b : Bool) : Symbol := if b then p.symIdle else p.symZero

/-- `encode_byte`: eight symbols, least significant bit first (R61, R122). -/
def encodeByte (p : Params) (v : Byte) : List Symbol :=
  (List.range 8).map fun b => encodeBit p (v.getLsbD b)

/-- A buffer of bytes: byte 0 first, symbol `8j + b` is bit `b` of byte `j` (R62, R63). -/
def encodeBytes (p : Params) (vs : List Byte) : List Symbol := vs.flatMap (encodeByte p)

/-- `decode_sym`: 1 if idle, else 0 (R123). -/
def decodeSym (p : Params) (s : Symbol) : Bool := s == p.symIdle

/-- The byte whose bit `j` is entry `j` of the list (R37, R65). -/
def assembleByte : List Bool → Byte
  | [] => 0#8
  | b :: rest => (assembleByte rest <<< 1) ||| BitVec.setWidth 8 (BitVec.ofBool b)

/-- `id_bit(rom, i) = rom[(i-1) div 8][(i-1) mod 8]`, `1 <= i <= 64` (R64). -/
def idBit (rom : Rom) (i : Nat) : Bool := (rom.getD ((i - 1) / 8) 0#8).getLsbD ((i - 1) % 8)

/-- A byte with bit `k` written. -/
def setByteBit (v : Byte) (k : Nat) (b : Bool) : Byte :=
  if b then v ||| (1#8 <<< k) else v &&& ~~~(1#8 <<< k)

/-- `set_id_bit(rom, i, b)`: that bit and no other (R64). -/
def setIdBit (rom : Rom) (i : Nat) (b : Bool) : Rom :=
  Vector.ofFn fun j => if j.val = (i - 1) / 8 then setByteBit rom[j] ((i - 1) % 8) b else rom[j]

/-- `WRITE_ADDR n` needs every `ADDR_IN[j]`, `j < n`, written (R108). -/
def addrWritten (n : Nat) (s : State) : Bool := (s.addrIn.toList.take n).all Option.isSome

/-- `ADDR_IN[0..n-1]`. -/
def addrBytes (n : Nat) (s : State) : List Byte := (s.addrIn.toList.take n).map fun b => b.getD 0#8

/-- `INIT` needs `LINK_IN` written (R108, R211). -/
def checkLinkIn (s : State) : Check := (s.linkIn.isSome, .operandUnwritten)

/-- `WRITE_BYTE` needs `DATA_IN` written (R108). -/
def checkDataIn (s : State) : Check := (s.dataIn.isSome, .operandUnwritten)

/-- `WRITE_ADDR n` needs its bytes written (R108). -/
def checkAddrIn (n : Nat) (s : State) : Check := (addrWritten n s, .operandUnwritten)

/-- A count out of 1..8 is a reserved encoding (R107). -/
def checkCount (n : Nat) : Check := (legalCount n, .illegalCommand)

end Sys2Proof.Machine
end

