-- ==== Sys2Proof/Machine/Bus.lean ====
section
/-! DEFINITION. The 1-Wire bus as an oracle with two questions, the reset echo and the received symbols
(20_memory.md R72): unconstrained, scripted, or the reference wired-AND bus of 95_test_vectors.md 2.0. The reference
bus is general knowledge, PRESUMED (log entry 31). -/

namespace Sys2Proof.Machine

/-- Whether an entry of the history is a reset exchange. -/
def isReset : WireEvent → Bool
  | .wReset _ _ => true
  | .wTx _ _ => false
  | .wRx _ _ => false

/-- The history since the last reset exchange. DESIGN CHOICE (log entry 31): with no reset exchange it is the whole
history, as if the devices had been reset at its start; 95_test_vectors.md 2.0 speaks only of devices after a reset. -/
def sinceReset (wire : List WireEvent) : List WireEvent :=
  (wire.reverse.takeWhile fun e => !isReset e).reverse

/-- The transmits of a history, in order. -/
def transmits : List WireEvent → List (List Symbol)
  | [] => []
  | .wTx _ syms :: rest => syms :: transmits rest
  | .wReset _ _ :: rest => transmits rest
  | .wRx _ _ :: rest => transmits rest

/-- How many receives a history holds. -/
def receiveCount : List WireEvent → Nat
  | [] => 0
  | .wRx _ _ :: rest => receiveCount rest + 1
  | .wReset _ _ :: rest => receiveCount rest
  | .wTx _ _ :: rest => receiveCount rest

/-- Every third entry: of the three one-symbol transmits of an identity bit the third is the write-back. -/
def thirds {α : Type} : List α → List α
  | _ :: _ :: c :: rest => c :: thirds rest
  | _ => []

/-- The direction bits written back after the search command. -/
def writtenDirs (p : Params) (slots : List (List Symbol)) : List Bool :=
  (thirds slots).map fun syms => decodeSym p (syms.headD p.symIdle)

/-- A device still takes part when it agrees with every direction bit written so far. -/
def agrees (d : Rom) : Nat → List Bool → Bool
  | _, [] => true
  | i, b :: rest => (idBit d i == b) && agrees d (i + 1) rest

/-- The answer of a driven slot: some symbol other than `SYM_IDLE` (with the default, `0xFE`). -/
def drivenSym (p : Params) : Symbol := p.symIdle ^^^ 1#8

/-- The wired-AND answer to the next read slot of a search: slot `2(i-1)` reads bit `i`, slot `2(i-1)+1` its
complement; none when the history since the reset is no search. DESIGN CHOICE (log entry 31), where 95_test_vectors.md
2.0 is silent: after bit 64, with no new reset, every further bit of a device reads as 0; and with slots out of the
order read, read, write, the reads alone give the slot's place, and every third transmit is the write-back, if it has
reached the wire. -/
def wiredAndSlot (p : Params) (devices : List Rom) (wire : List WireEvent) : Option Symbol :=
  let h := sinceReset wire
  match transmits h with
  | [] => none
  | command :: slots =>
    if command = encodeByte p p.cmdSearchRom then
      let r := receiveCount h
      let i := r / 2 + 1
      let part := devices.filter fun d => agrees d 1 ((writtenDirs p slots).take (r / 2))
      let released := if r % 2 = 0 then part.all fun d => idBit d i else part.all fun d => !idBit d i
      some (if released then p.symIdle else drivenSym p)
    else none

/-- `oracle.reset_echo(wire)` and the oracle afterwards (R72). -/
def busResetEcho (p : Params) (bus : Bus) (wire : List WireEvent) : Option Symbol × Bus :=
  match bus with
  | .unconstrained => (Config.resetEcho wire, .unconstrained)
  | .scripted [] slots => (Config.resetEcho wire, .scripted [] slots)
  | .scripted (e :: echoes) slots => (e, .scripted echoes slots)
  | .wiredAnd devices => (some (if devices.isEmpty then p.symReset else 0xE0#8), .wiredAnd devices)

/-- The unconstrained oracle's `n` symbols (R72). -/
def freeSymbols (wire : List WireEvent) (n : Nat) : List Symbol :=
  (List.range n).map fun k => Config.readSymbol wire n k

/-- `oracle.read_symbols(wire, n)` and the oracle afterwards (R72): always `n` symbols. -/
def busReadSymbols (p : Params) (bus : Bus) (wire : List WireEvent) (n : Nat) : List Symbol × Bus :=
  match bus with
  | .unconstrained => (freeSymbols wire n, .unconstrained)
  | .scripted echoes slots =>
    (slots.take n ++ (freeSymbols wire n).drop slots.length, .scripted echoes (slots.drop n))
  | .wiredAnd devices =>
    (match n, wiredAndSlot p devices wire with
      | 1, some sym => [sym]
      | n, _ => freeSymbols wire n,
     .wiredAnd devices)

end Sys2Proof.Machine
end

