-- ==== Sys2Proof/Machine/Ops.lean ====
section
/-! DEFINITION. The named operations the meanings share: raising a fault or a refusal (60_exceptions.md R272, the one
operation in place of taking an exception; nothing is saved and nothing returns from it, R277, R278), starting a
command, filling the transmit buffer, issuing transfers (40_symbol_transport.md R127, R128), free identities, and the
body of the reset exchange (41_reset_presence.md R152 to R156). -/

namespace Sys2Proof.Machine

/-- `raise`: the first reason is kept, nothing else changes (R43, R272). -/
def raise (r : Reason) (s : State) : State :=
  { s with fault := match s.fault with
      | none => some r
      | some first => some first }

/-- A command starts only at `IDLE` (R95); then the first failed check is reported (R282), else it has its effect. -/
def command (checks : List Check) (effect : State → State) (s : State) : Result :=
  if s.seq = .idle then
    match firstViolation checks with
    | some r => .next (raise r s)
    | none => .next (effect s)
  else .fault .commandWhileRunning

/-- A transmit buffer that holds the symbols from index 0; the others are unspecified (R27). -/
def txBufOf (syms : List Symbol) (draw : Nat) : Vector Symbol 64 :=
  Vector.ofFn fun j => syms.getD j.val (Config.freeTxSymbol draw j.val)

/-- A receive buffer of unspecified symbols (R70). -/
def rxBufFree (draw : Nat) : Vector Symbol 8 := Vector.ofFn fun j => Config.freeRxSymbol draw j.val

/-- An unspecified `R_ROM` (R184, R190). -/
def resultRomFree (draw : Nat) : Rom := Vector.ofFn fun j => Config.freeResultByte draw j.val

/-- An unspecified `last_rom` (R190). -/
def lastRomFree (draw : Nat) : Rom := Vector.ofFn fun j => Config.freeLastRomByte draw j.val

/-- `tx_issue(k)` (R127). -/
def txIssue (k : Nat) (s : State) : State :=
  { s with txLen := k, txDone := false, txInflight := some k }

/-- `rx_issue(n)`; `rx_buf` is unspecified until the completion (R128, R70). -/
def rxIssue (n : Nat) (s : State) : State :=
  { s with
    rxLen := n, rxDone := false, rxInflight := some n
    rxBuf := rxBufFree s.draws, draws := s.draws + 1 }

/-- Fills the transmit buffer and issues the transmit, in one step (R68, R127). -/
def sendSymbols (syms : List Symbol) (s : State) : State :=
  txIssue syms.length { s with txBuf := txBufOf syms s.draws, draws := s.draws + 1 }

/-- `n` read slots: `n` idle symbols, the receive armed before the transmit is started (R75, R136). -/
def readSlots (n : Nat) (s : State) : State :=
  sendSymbols (List.replicate n s.params.symIdle) (rxIssue n s)

/-- The first part of the reset body: the switch to reset timing and the start of the exchange, which uses neither
buffer, flag nor in-flight field (R152, R153). -/
def startReset (s : State) : State := { s with timing := .resetRate }

/-- Classification of the echo, in this order: none, identical, different (R154). -/
def classifyEcho (p : Params) : Option Symbol → Presence
  | none => .timeout
  | some e => if e = p.symReset then .noChange else .ok

/-- What the link's answer will be classified as. -/
def resetOutcome (s : State) : Presence := classifyEcho s.params (busResetEcho s.params s.bus s.wire).1

/-- The rest of the reset body, when the link answers: the wire history, `R_PRESENCE`, and on success data-rate
timing again (R151, R154 to R156). -/
def finishReset (s : State) : State :=
  { s with
    bus := (busResetEcho s.params s.bus s.wire).2
    wire := s.wire ++ [.wReset s.params.symReset (busResetEcho s.params s.bus s.wire).1]
    rPresence := resetOutcome s
    timing := if resetOutcome s = .ok then .dataRate else s.timing }

end Sys2Proof.Machine
end

