-- ==== Sys2Proof/Machine/BitPrimitives.lean ====
section
/-! DEFINITION. The bit primitives `READ_BIT` and `WRITE_BIT` (42_bit_primitives.md R165 to R171). -/

namespace Sys2Proof.Machine

/-- `WRITE_BIT b` (R170): one symbol, fire and forget. -/
def execWriteBit (b : Bool) (s : State) : Result :=
  command [checkInited s, checkIdle s, checkDataRate s]
    (fun s => sendSymbols [encodeBit s.params b] s) s

/-- `READ_BIT`, its first step (R166): one read slot is issued and the sequencer goes to `RB_WAIT`. -/
def execReadBit (s : State) : Result :=
  command [checkInited s, checkIdle s, checkDataRate s]
    (fun s => { readSlots 1 s with seq := .rbWait }) s

/-- The hold of `READ_BIT` and its end (R166, R167): nothing while `rx_done` = 0, then `R_BIT`. It does not wait for
`tx_done` (R168). -/
def readBitPhase (s : State) : State :=
  if s.rxDone then { s with rBit := decodeSym s.params s.rxBuf[0], seq := .idle } else s

end Sys2Proof.Machine
end

