-- ==== Sys2Proof/Machine/InitEvents.lean ====
section
/-! DEFINITION. `INIT` and the completion events (44_init_and_events.md R210 to R218). -/

namespace Sys2Proof.Machine

/-- The effect of `INIT` (R211, R44): the link of `LINK_IN` is bound; `timing` and the buffer contents are unspecified
(R26, U7, U8); the operand registers, `wire` and `fault` are kept (R302). -/
def initEffect (s : State) : State :=
  { s with
    boundLink := s.linkIn
    lastDiscrepancy := 0, lastDeviceFlag := false, lastRom := zeroRom
    txDone := true, rxDone := true
    txLen := 0, rxLen := 0, txInflight := none, rxInflight := none
    txBuf := txBufOf [] s.draws, rxBuf := rxBufFree s.draws
    rOk := false, rBit := false, rPresence := .timeout, rRom := zeroRom
    timing := Config.freeTiming s.draws
    seq := .idle, inited := true
    draws := s.draws + 1 }

/-- `INIT` (R211): refused `OperandUnwritten` when `LINK_IN` was never written, `InitWhileBusy` when a transfer is
outstanding (R213). -/
def execInit (s : State) : Result :=
  command [checkLinkIn s, (!s.inited || isIdle s, .initWhileBusy)] initEffect s

/-- Whether an event's link is the bound one; before `INIT` none is (R21, R22, R215). -/
def linkMatches (link : Link) (s : State) : Bool := s.inited && s.boundLink == some link

/-- `RX_COMPLETE` (R215): only `rx_done`; never faults; legal in every phase (R218). -/
def execRxComplete (link : Link) (s : State) : Result :=
  .next { s with rxDone := s.rxDone || linkMatches link s }

/-- `TX_COMPLETE` (R216): only `tx_done`; never faults; legal in every phase (R218). -/
def execTxComplete (link : Link) (s : State) : Result :=
  .next { s with txDone := s.txDone || linkMatches link s }

end Sys2Proof.Machine
end

