-- ==== Sys2Proof/Machine/ResetDetector.lean ====
section
/-! DEFINITION. The Reset/Presence Detector: the command `RESET` (41_reset_presence.md R150 to R160). -/

namespace Sys2Proof.Machine

/-- `RESET`, its first step (R151 to R153): legal at either timing; the exchange is started. -/
def execReset (s : State) : Result :=
  command [checkInited s, checkIdle s] (fun s => { startReset s with seq := .rsWait }) s

/-- The link answers, with an echo or the timeout, and `RESET` returns (R153 to R158). -/
def resetPhase (s : State) : State := { finishReset s with seq := .idle }

end Sys2Proof.Machine
end

