-- ==== Sys2Proof/Machine/Search.lean ====
section
/-! DEFINITION. The ROM Search Engine: the command `SEARCH_NEXT` and the phases of its state machine
(43_rom_search.md R180 to R200). -/

namespace Sys2Proof.Machine

/-- `SEARCH_NEXT`, its first step (R181 to R183, R186): the reset exchange is started. -/
def execSearchNext (s : State) : Result :=
  command [checkInited s, checkIdle s] (fun s => { startReset s with seq := .sReset }) s

/-- The tie-break (R191): `ld` is the previous pass's `last_discrepancy`. -/
def chooseDir (i ld : Nat) (priorBit : Bool) : Bool :=
  if i < ld then priorBit else if i = ld then true else false

/-- A false return: `R_OK` = 0 and the command is over. -/
def searchFalse (s : State) : State := { s with rOk := false, seq := .idle }

/-- The search state goes back to "start fresh" (R184, R190). -/
def restartSearch (s : State) : State := { s with lastDiscrepancy := 0, lastDeviceFlag := false }

/-- `S_RESET` (R183 to R186): absence aborts, an exhausted enumeration returns false with the search state kept, else
the search goes on. -/
def sResetPhase (s : State) : State :=
  let t := finishReset s
  if resetOutcome s = .ok then
    if t.lastDeviceFlag then searchFalse t else { t with seq := .sCmd }
  else
    searchFalse { restartSearch t with rRom := resultRomFree t.draws, draws := t.draws + 1 }

/-- A transfer inside the search: hold until `idle()` (R187), then the body of the command with its data-rate
precondition (R181); a violation would end the search (R274 says it cannot occur; log entry 15). -/
def searchIssue (body : State → State) (next : Phase) (s : State) : State :=
  if isIdle s then
    match firstViolation [checkDataRate s] with
    | some r => { raise r s with seq := .idle }
    | none => { body s with seq := next }
  else s

/-- `S_CMD` (R188): the Search ROM command byte. -/
def sCmdPhase (s : State) : State :=
  searchIssue
    (fun s => { sendSymbols (encodeByte s.params s.params.cmdSearchRom) s with i := 1, lastZero := 0 })
    .sIdIssue s

/-- `S_ID_ISSUE`: the read slot of the original bit (R189). -/
def sIdIssuePhase (s : State) : State := searchIssue (readSlots 1) .sIdRx s

/-- `S_ID_RX`: hold until `rx_done`, then `id_b` (R186). -/
def sIdRxPhase (s : State) : State :=
  if s.rxDone then { s with idB := decodeSym s.params s.rxBuf[0], seq := .sCmpIssue } else s

/-- `S_CMP_ISSUE`: the read slot of the complement (R189). -/
def sCmpIssuePhase (s : State) : State := searchIssue (readSlots 1) .sCmpRx s

/-- `S_CMP_RX`: hold until `rx_done`, then `cmp_b` (R186). -/
def sCmpRxPhase (s : State) : State :=
  if s.rxDone then { s with cmpB := decodeSym s.params s.rxBuf[0], seq := .sDecide } else s

/-- The direction of the current index (R189, R191): the common bit when the two bits differ, else the tie-break. -/
def direction (s : State) : Bool :=
  if s.idB != s.cmpB then s.idB else chooseDir s.i s.lastDiscrepancy (idBit s.lastRom s.i)

/-- `last_zero` after the current index: `i` when a discrepancy is resolved to 0 (R192). -/
def nextLastZero (s : State) : Nat :=
  if s.idB = s.cmpB ∧ direction s = false then s.i else s.lastZero

/-- `S_DECIDE`: the conflict test (R190), else the direction, recorded and assembled (R189, R191 to R193). -/
def sDecidePhase (s : State) : State :=
  if s.idB && s.cmpB then
    searchFalse { restartSearch s with
      lastRom := lastRomFree s.draws, rRom := resultRomFree s.draws, draws := s.draws + 1 }
  else
    { s with
      dir := direction s, lastZero := nextLastZero s
      romWork := setIdBit s.romWork s.i (direction s), seq := .sDir }

/-- `S_DIR`: the write-back, and the next index or the end of the pass (R186, R193). -/
def sDirPhase (s : State) : State :=
  searchIssue
    (fun s => { sendSymbols [encodeBit s.params s.dir] s with i := if s.i < 64 then s.i + 1 else s.i })
    (if s.i < 64 then .sIdIssue else .sFinish) s

/-- `S_FINISH`: the end of a successful pass (R194). -/
def sFinishPhase (s : State) : State :=
  { s with
    lastDiscrepancy := s.lastZero
    lastDeviceFlag := s.lastDeviceFlag || s.lastZero == 0
    lastRom := s.romWork, rRom := s.romWork, rOk := true, seq := .idle }

end Sys2Proof.Machine
end

