-- ==== Sys2Proof/Machine/Transport.lean ====
section
/-! DEFINITION. The commands of the Symbol Transport: `WRITE_BYTE`, `WRITE_ADDR`, `READ_ISSUE`
(40_symbol_transport.md R130, R133, R136, R140). None of them waits. -/

namespace Sys2Proof.Machine

/-- `WRITE_BYTE` (R130). -/
def execWriteByte (s : State) : Result :=
  command [checkInited s, checkDataIn s, checkIdle s, checkDataRate s]
    (fun s => sendSymbols (encodeByte s.params (s.dataIn.getD 0#8)) s) s

/-- `WRITE_ADDR n` (R133): one transfer of `8n` symbols. -/
def execWriteAddr (n : Nat) (s : State) : Result :=
  command [checkCount n, checkInited s, checkAddrIn n s, checkIdle s, checkDataRate s]
    (fun s => sendSymbols (encodeBytes s.params (addrBytes n s)) s) s

/-- `READ_ISSUE n` (R136). -/
def execReadIssue (n : Nat) (s : State) : Result :=
  command [checkCount n, checkInited s, checkIdle s, checkDataRate s] (readSlots n) s

end Sys2Proof.Machine
end

