-- ==== Sys2Proof/Machine/Dispatch.lean ====
section
/-! DEFINITION. Which meaning each instruction has: one arm per constructor of Instr, one direct call each. -/

namespace Sys2Proof.Machine

def exec (i : Instr) (s : State) : Host.Outcome State Fault Refusal :=
  match i with
  | .init => Sys2Proof.Machine.execInit s
  | .writeBit b => Sys2Proof.Machine.execWriteBit b s
  | .writeByte => Sys2Proof.Machine.execWriteByte s
  | .writeAddr n => Sys2Proof.Machine.execWriteAddr n s
  | .readIssue n => Sys2Proof.Machine.execReadIssue n s
  | .readBit => Sys2Proof.Machine.execReadBit s
  | .reset => Sys2Proof.Machine.execReset s
  | .searchNext => Sys2Proof.Machine.execSearchNext s
  | .rxComplete link => Sys2Proof.Machine.execRxComplete link s
  | .txComplete link => Sys2Proof.Machine.execTxComplete link s

end Sys2Proof.Machine
end

