-- ==== Sys2Proof/Machine/Views.lean ====
section
/-! DEFINITION. The status and result reads (10_state.md R35, R37; 44_init_and_events.md R219). They change no
state. -/

namespace Sys2Proof.Machine

/-- `RX_BIT` is valid iff the receive has completed and holds a symbol (R37). -/
def rxBitValid (s : State) : Bool := s.rxDone && 1 ≤ s.rxLen

/-- `RX_BYTE` is valid iff the receive has completed and holds eight symbols (R37). -/
def rxByteValid (s : State) : Bool := s.rxDone && s.rxLen == 8

/-- The byte whose bit `j` is `decode_sym(rx_buf[j])` (R37). -/
def rxByteOf (s : State) : Byte := assembleByte (s.rxBuf.toList.map (decodeSym s.params))

/-- A read: `NotInitialised` before `INIT` (R219), `RxViewInvalid` for an invalid view (R275), else the value. -/
def readView (v : View) (s : State) : Except Reason ViewValue :=
  if s.inited then
    match v with
    | .flags => .ok (.flags (flagsOf s))
    | .rxBit => if rxBitValid s then .ok (.bit (decodeSym s.params s.rxBuf[0])) else .error .rxViewInvalid
    | .rxByte => if rxByteValid s then .ok (.byte (rxByteOf s)) else .error .rxViewInvalid
    | .rOk => .ok (.bit s.rOk)
    | .rBit => .ok (.bit s.rBit)
    | .rPresence => .ok (.presence (presenceCode s.rPresence))
    | .rRom => .ok (.rom s.rRom)
  else .error .notInitialised

end Sys2Proof.Machine
end

