-- ==== Sys2Proof/Machine/HostClients.lean ====
section
/-! DEFINITION. The host: its port operations on the block (10_state.md R36; 30_encoding.md R95, R111;
44_init_and_events.md R219) and the host agents of 46_host_clients.md, R230 to R252: the device state machine, the bus
arbiter, the administrative calls and the temperature decode. The host reaches the block only through command words,
operand registers and views. -/

namespace Sys2Proof.Machine

/-- Presents a command word (R95): a reserved word is refused `IllegalCommand` before anything else is checked (R106,
R107, R282), else the command runs. -/
def presentCommand (w : Byte) (s : State) : Result :=
  match decodeCommand w with
  | .ok i => exec i s
  | .error _ => if s.seq = .idle then .next (raise .illegalCommand s) else .fault .commandWhileRunning

/-- Puts operations before the rest of the host's program. -/
def pushOps (ops : List HostOp) (s : State) : State := { s with program := ops ++ s.program }

/-- `WRITE_BYTE v` as the assembler writes it (R110). -/
def writeByteOps (v : Byte) : List HostOp := [.setDataIn v, .command 0x30#8]

/-- `ADDR_IN[j] <- rom[j]`, all eight. -/
def setAddrOps (rom : Rom) : List HostOp := List.ofFn fun j : Fin 8 => .setAddrIn j rom[j]

/-- `WRITE_ROM a0..a7` (R111). -/
def writeRomOps (rom : Rom) : List HostOp := setAddrOps rom ++ [.command 0x48#8]

/-- `READ_BYTE` (R111). -/
def readByteOps : List HostOp := [.command 0x58#8, .waitIdle, .read .rxByte]

/-- One round of `SEARCH_ALL` (R111). -/
def searchRoundOps : List HostOp := [.waitIdle, .command 0x80#8, .searchLoop]

/-- `SEARCH_ALL`: rounds until `R_OK` = 0 (R111). -/
def searchAllOps : List HostOp := searchRoundOps

/-- `SEARCH_RESTART` = `WAIT_IDLE ; INIT bound_link` (R111, R212). -/
def searchRestartOps : List HostOp := [.waitIdle, .setLinkInBound, .command 0x10#8]

/-- A line of the assembler's text (R110, R111), but for the events, which are turns of the schedule (`Turn.event`).
The count of `WRITE_ADDR` is the number of its bytes. -/
inductive AsmLine where
  | init (link : Link)
  | writeBit (b : Bool)
  | writeByte (v : Byte)
  | writeAddr (bytes : List Byte)
  | readIssue (n : Nat)
  | readBit
  | reset
  | searchNext
  | read (v : View)
  | waitIdle
  | writeRom (rom : Rom)
  | readByte
  | searchAll
  | searchRestart
  deriving DecidableEq, Repr

/-- The command word of an instruction on the command port; an event has none. -/
def commandOps (i : Instr) : List HostOp :=
  match encode i with
  | .cmd w => [.command w]
  | .evt _ => []

/-- `ADDR_IN[j] <- bytes[j]` for the bytes of a `WRITE_ADDR` line; there is no register beyond `ADDR_IN[7]`. -/
def addrLineOps (bytes : List Byte) : List HostOp :=
  (List.finRange 8).filterMap fun j => bytes[j.val]?.map (HostOp.setAddrIn j)

/-- A count the 4-bit immediate can hold (R97). -/
def countFits (n : Nat) : Bool := n < 16

/-- What a line stands for: the writes of its operand registers, then its command word (R110), or the expansion of a
pseudo-command (R111). DESIGN CHOICE (log entry 34): a line whose count the immediate cannot hold has no word and
stands for nothing, where R110 is silent. A count of 0 or 9 to 15 has its reserved word, which the block refuses
(R107). -/
def lineOps : AsmLine → Option (List HostOp)
  | .init link => some (.setLinkIn link :: commandOps .init)
  | .writeBit b => some (commandOps (.writeBit b))
  | .writeByte v => some (writeByteOps v)
  | .writeAddr bytes =>
    if countFits bytes.length then some (addrLineOps bytes ++ commandOps (.writeAddr bytes.length)) else none
  | .readIssue n => if countFits n then some (commandOps (.readIssue n)) else none
  | .readBit => some (commandOps .readBit)
  | .reset => some (commandOps .reset)
  | .searchNext => some (commandOps .searchNext)
  | .read v => some [.read v]
  | .waitIdle => some [.waitIdle]
  | .writeRom rom => some (writeRomOps rom)
  | .readByte => some readByteOps
  | .searchAll => some searchAllOps
  | .searchRestart => some searchRestartOps

/-- A program's text as the host's operations; none when one of its lines stands for nothing (log entry 34). -/
def assemble : List AsmLine → Option (List HostOp)
  | [] => some []
  | line :: rest =>
    match lineOps line, assemble rest with
    | some ops, some restOps => some (ops ++ restOps)
    | some _, none => none
    | none, _ => none

/-- Updates one Device Context. -/
def updateDevice (d : Nat) (f : Device → Device) (s : State) : State :=
  { s with clients := { s.clients with devices := s.clients.devices.modify d f } }

/-- A new Device Context: `state` is `Idle` (R235, D37). The spec gives the other fields no initial value; these are
DESIGN CHOICE (log entry 27), `address` until discovery sets it (R231). -/
def initialDevice : Device where
  address := zeroRom
  temperature := 0
  lsb := 0#8
  msb := 0#8
  presence := .timeout
  state := .idle
  lastConv := 0

/-- The caller sets up one more device, numbered after those it has (R231). -/
def newDeviceOp (s : State) : State :=
  { s with clients := { s.clients with devices := s.clients.devices ++ [initialDevice] } }

/-- Sets the arbiter's owner (R232). -/
def setOwner (o : Option Nat) (s : State) : State := { s with clients := { s.clients with owner := o } }

/-- A device's machine state. -/
def setDevState (d : Nat) (st : DevState) (s : State) : State := updateDevice d (fun x => { x with state := st }) s

/-- The host reads a view or a result register and goes on with the value; a refusal or a fault of the read sets the
mark and the host goes on with `refused` (R219, R275, log entry 32). Every read of the host is this one. -/
def readThen (v : View) (act : ViewValue → State → State) (refused : State → State) (s : State) : State :=
  match readView v s with
  | .ok x => act x s
  | .error r => refused (raise r s)

/-- A read of a view or register that gives a bit. -/
def withBit (v : View) (act : Bool → State → State) (refused : State → State) (s : State) : State :=
  readThen v
    (fun x s =>
      match x with
      | .bit b => act b s
      | _ => s)
    refused s

/-- A read of `RX_BYTE`. -/
def withRxByte (act : Byte → State → State) (s : State) : State :=
  readThen .rxByte
    (fun x s =>
      match x with
      | .byte v => act v s
      | _ => s)
    id s

/-- A read of `R_ROM`. -/
def withRom (act : Rom → State → State) (s : State) : State :=
  readThen .rRom
    (fun x s =>
      match x with
      | .rom r => act r s
      | _ => s)
    id s

/-- The outcome a code of `R_PRESENCE` names (R94). -/
def presenceOf (code : BitVec 2) : Presence :=
  if code = 0#2 then .ok else if code = 1#2 then .timeout else .noChange

/-- A read of `R_PRESENCE`. -/
def withPresence (act : Presence → State → State) (refused : State → State) (s : State) : State :=
  readThen .rPresence
    (fun x s =>
      match x with
      | .presence code => act (presenceOf code) s
      | _ => s)
    refused s

/-- The host records what a read gave. -/
def hostRead (v : View) (s : State) : State :=
  readThen v (fun x s => { s with clients := { s.clients with seen := s.clients.seen ++ [x] } }) id s

/-- `FLAGS?`, and whether it is `0b11` (R111, R236). -/
def withFlags (both notBoth : State → State) (s : State) : State :=
  readThen .flags (fun x s => if x = .flags 0b11#2 then both s else notBoth s) id s

/-- `WAIT_IDLE` (R111): goes on when both flags are 1, else looks again. -/
def waitIdleOp (s : State) : State := withFlags id (pushOps [.waitIdle]) s

/-- What an administrative call of the host returned; none when a read it needed was refused (log entry 32). -/
def returns (r : Option Bool) (s : State) : State := { s with clients := { s.clients with ret := r } }

/-- A routine that ends early: it drops its other `rest` operations. -/
def abandon (rest : Nat) (r : Option Bool) (s : State) : State :=
  returns r { s with program := s.program.drop rest }

/-- `Measure` (R233): a no-op unless the device is `Idle`. -/
def measureOp (d : Nat) (s : State) : State :=
  updateDevice d (fun x => if x.state = .idle then { x with state := .waitAccess } else x) s

/-- The application restarts a device that is in `Error` (R245). -/
def restartOp (d : Nat) (s : State) : State :=
  updateDevice d (fun x => if x.state = .error then { x with state := .idle } else x) s

/-- Owner check (R242): the arbiter's owner is unset or already this device. -/
def ownerAllows (d : Nat) (s : State) : Bool := s.clients.owner == none || s.clients.owner == some d

/-- The stay guard (R236): a state that would issue a transfer stays unless `FLAGS = 0b11`. -/
def stayGuard (act : State → State) (s : State) : State := withFlags act id s

/-- `temperature` in sixteenths: the two's-complement combination `msb:lsb` (R247). -/
def decodeTemperature (msb lsb : Byte) : Int := (msb ++ lsb).toInt

/-- Elapsed ticks since the conversion was started (R240). -/
def elapsed (x : Device) (s : State) : Nat := s.clients.now - x.lastConv

/-- `Poll` in `Error` (R237, R245): nothing under external re-initiation. -/
def pollError (d : Nat) (x : Device) (s : State) : State :=
  match s.params.errorPolicy with
  | .externalRestart => s
  | .retryAfter cooldown => if cooldown ≤ elapsed x s then setDevState d .waitAccess s else s

/-- `Poll` in `WaitConversion` (R240, R244): advances at or above the wait. -/
def pollWaitConversion (d : Nat) (x : Device) (s : State) : State :=
  if s.params.convTicks ≤ elapsed x s then
    setDevState d .reset2 (if s.params.hostReclaim then setOwner (some d) s else s)
  else s

/-- `Poll` in `Calculate` (R241, R247). -/
def pollCalculate (d : Nat) (x : Device) (s : State) : State :=
  withRxByte
    (fun v s =>
      setOwner none
        (updateDevice d
          (fun y => { y with msb := v, temperature := decodeTemperature v x.lsb, state := .idle }) s)) s

/-- The action of a device's state, once the owner check has passed (R237 to R243). -/
def pollAction (d : Nat) (x : Device) (s : State) : State :=
  match x.state with
  | .idle => s
  | .error => s
  | .waitAccess => setDevState d .reset (setOwner (some d) s)
  | .reset => stayGuard (pushOps [.command 0x70#8, .pollResetDone d]) s
  | .matchRom => stayGuard (fun s => pushOps (writeByteOps s.params.cmdMatchRom) (setDevState d .sendAddress s)) s
  | .sendAddress => stayGuard (fun s => pushOps (writeRomOps x.address) (setDevState d .startConversion s)) s
  | .startConversion => stayGuard (fun s => pushOps (writeByteOps s.params.cmdConvertT ++ [.pollConvertDone d]) s) s
  | .waitConversion => pollWaitConversion d x s
  | .reset2 => stayGuard (pushOps [.command 0x70#8, .pollResetDone d]) s
  | .matchRom2 => stayGuard (fun s => pushOps (writeByteOps s.params.cmdMatchRom) (setDevState d .sendAddress2 s)) s
  | .sendAddress2 => stayGuard (fun s => pushOps (writeRomOps x.address) (setDevState d .read s)) s
  | .read => stayGuard (fun s => pushOps (writeByteOps s.params.cmdReadScratchpad) (setDevState d .readLsb s)) s
  | .readLsb => stayGuard (fun s => pushOps [.command 0x58#8] (setDevState d .readMsb s)) s
  | .readMsb =>
    stayGuard
      (withRxByte fun v s =>
        pushOps [.command 0x58#8] (updateDevice d (fun y => { y with lsb := v, state := .calculate }) s)) s
  | .calculate => stayGuard (pollCalculate d x) s

/-- `Poll(device)` (R234, R242): `Idle` and `Error` need no owner; any other state does nothing unless the owner check
passes. -/
def pollDevice (d : Nat) (s : State) : State :=
  match s.clients.devices[d]? with
  | none => s
  | some x =>
    if x.state = .idle then s
    else if x.state = .error then pollError d x s
    else if ownerAllows d s then pollAction d x s
    else s

/-- The state after a device's reset step: `P_OK` goes on, anything else is `Error` (R237, R238). -/
def afterReset (st : DevState) (p : Presence) : DevState :=
  if p = .ok then (if st = .reset then .matchRom else .matchRom2) else .error

/-- The rest of a `Poll` in `Reset` or `Reset2` (R237, R238): the outcome is read and copied, and `Error` releases the
bus (R243). -/
def pollResetDoneOp (d : Nat) (s : State) : State :=
  withPresence
    (fun p s =>
      let t := updateDevice d (fun x => { x with presence := p, state := afterReset x.state p }) s
      if p = .ok then t else setOwner none t)
    id s

/-- The rest of a `Poll` in `StartConversion`, after the command is issued (R237, R239): the start is recorded, and the
bus is released. -/
def pollConvertDoneOp (d : Nat) (s : State) : State :=
  setOwner none (updateDevice d (fun x => { x with lastConv := s.clients.now, state := .waitConversion }) s)

/-- The host's end of `SearchNext` (R249): the identity is copied when `R_OK` = 1, and the boolean is returned. -/
def searchNextDoneOp (d : Nat) (s : State) : State :=
  withBit .rOk
    (fun ok s =>
      returns (some ok)
        (if ok then withRom (fun rom s => updateDevice d (fun x => { x with address := rom }) s) s else s))
    (returns none) s

/-- An identity joins those a `SEARCH_ALL` collected. -/
def collect (rom : Rom) (s : State) : State :=
  { s with clients := { s.clients with found := s.clients.found ++ [rom] } }

/-- The end of one round of `SEARCH_ALL` (R111): the identity is collected, and another round follows, while `R_OK`
= 1. -/
def searchLoopOp (s : State) : State :=
  withBit .rOk
    (fun ok s => if ok then withRom (fun rom s => pushOps searchRoundOps (collect rom s)) s else s)
    id s

/-- The configuration byte `((bits - 9) << 5) | 0x1F` (R246). -/
def configByte (bits : Nat) : Byte := (BitVec.ofNat 8 (bits - 9) <<< 5) ||| 0x1F#8

/-- Reset, test, address: the start of both halves of `SetPrecision` (R246). -/
def addressDeviceOps (p : Params) (address : Rom) : List HostOp :=
  writeByteOps p.cmdMatchRom ++ [.waitIdle] ++ writeRomOps address ++ [.waitIdle]

/-- A host write of one byte, waited for. -/
def waitedByteOps (v : Byte) : List HostOp := writeByteOps v ++ [.waitIdle]

/-- `RESET`, then `ops` only if presence was confirmed (R246: false on bus error). -/
def guardedOps (d : Nat) (ops : List HostOp) : List HostOp := [.command 0x70#8, .needPresence d ops.length] ++ ops

/-- One blocking bit read of `SetPrecision` and its test (R169, R246). -/
def copyRoundOps : List HostOp := [.command 0x60#8, .waitIdle, .copyLoop]

/-- The byte sequence of `SetPrecision`. PRESUMED (R246, N14, log entry 29): the spec takes it from the sensor's data
sheet; the thresholds are free values. The routine uses the blocking bit read (R169, R246, C7), for which the spec
gives no place: PRESUMED (log entry 29), it reads bits after the copy command until one is 1. -/
def setPrecisionOps (p : Params) (d : Nat) (address : Rom) (bits : Nat) : List HostOp :=
  [.waitIdle] ++
  guardedOps d
    (addressDeviceOps p address ++ waitedByteOps p.cmdWriteScratchpad ++ waitedByteOps Config.alarmThresholds.1 ++
      waitedByteOps Config.alarmThresholds.2 ++ waitedByteOps (configByte bits) ++
      guardedOps d
        (addressDeviceOps p address ++ waitedByteOps p.cmdCopyScratchpad ++ copyRoundOps))

/-- The end of one bit read of `SetPrecision`: another while the sensor answers 0, still copying, else the routine
returns true (log entry 29). -/
def copyLoopOp (s : State) : State :=
  withBit .rBit (fun b s => if b then returns (some true) s else pushOps copyRoundOps s) (returns none) s

/-- `SetPrecision` (R246, R270): `InvalidResolution` returns false and sends nothing. -/
def setPrecisionOp (d bits : Nat) (s : State) : State :=
  match s.clients.devices[d]? with
  | none => s
  | some x =>
    if 9 ≤ bits ∧ bits ≤ 12 then pushOps (setPrecisionOps s.params d x.address bits) s
    else returns (some false) s

/-- The host copies the outcome it read into the device's `presence` (R231). -/
def copyPresence (d : Nat) (p : Presence) (s : State) : State := updateDevice d (fun x => { x with presence := p }) s

/-- The end of a synchronous routine's own reset (R231, R246, R270). -/
def needPresenceOp (d rest : Nat) (s : State) : State :=
  withPresence
    (fun p s => if p = .ok then copyPresence d p s else abandon rest (some false) (copyPresence d p s))
    (abandon rest none) s

/-- One host operation in the polling context (R250). -/
def hostOp (op : HostOp) (s : State) : Result :=
  match op with
  | .setLinkIn v => .next { s with linkIn := some v }
  | .setLinkInBound => .next { s with linkIn := s.boundLink }
  | .setDataIn v => .next { s with dataIn := some v }
  | .setAddrIn j v => .next { s with addrIn := s.addrIn.set j (some v) }
  | .command w => presentCommand w s
  | .read v => .next (hostRead v s)
  | .waitIdle => .next (waitIdleOp s)
  | .searchLoop => .next (searchLoopOp s)
  | .measure d => .next (measureOp d s)
  | .poll d => .next (pollDevice d s)
  | .pollResetDone d => .next (pollResetDoneOp d s)
  | .pollConvertDone d => .next (pollConvertDoneOp d s)
  | .newDevice => .next (newDeviceOp s)
  | .restart d => .next (restartOp d s)
  | .searchNext d => .next (pushOps [.command 0x80#8, .searchNextDone d] s)
  | .searchNextDone d => .next (searchNextDoneOp d s)
  | .setPrecision d bits => .next (setPrecisionOp d bits s)
  | .needPresence d rest => .next (needPresenceOp d rest s)
  | .copyLoop => .next (copyLoopOp s)

/-- The host's step: its oldest operation, or nothing when it has none. -/
def hostStep (s : State) : Result :=
  match s.program with
  | [] => .next s
  | op :: rest => hostOp op { s with program := rest }

end Sys2Proof.Machine
end

