-- ==== Sys2Proof/Machine/Link.lean ====
section
/-! DEFINITION. The completion steps of the link agents (40_symbol_transport.md R138, R139) and the link's contract on
events (60_exceptions.md R287). -/

namespace Sys2Proof.Machine

/-- The link transmitter's step (R138): the symbols go out in index order at the current timing, and one
`TX_COMPLETE(bound_link)` becomes pending. No step when nothing is in flight. -/
def linkTxStep (s : State) : State :=
  match s.txInflight with
  | none => s
  | some k =>
    { s with
      wire := s.wire ++ [.wTx s.timing (s.txBuf.toList.take k)]
      txInflight := none, txPending := s.boundLink }

/-- `rx_buf` after the symbols have landed from index 0 (R139). -/
def landSymbols (syms : List Symbol) (buf : Vector Symbol 8) : Vector Symbol 8 :=
  Vector.ofFn fun j => syms.getD j.val buf[j]

/-- The link receiver's step (R139, R70): the symbols land, and one `RX_COMPLETE(bound_link)` becomes pending. No step
when no receive is armed. -/
def linkRxStep (s : State) : State :=
  match s.rxInflight with
  | none => s
  | some n =>
    { s with
      rxBuf := landSymbols (busReadSymbols s.params s.bus s.wire n).1 s.rxBuf
      wire := s.wire ++ [.wRx s.timing (busReadSymbols s.params s.bus s.wire n).1]
      bus := (busReadSymbols s.params s.bus s.wire n).2
      rxInflight := none, rxPending := s.boundLink }

/-- The contract on an event word that no transfer caused (R217, R287 (c)): with the bound link's identity it never
comes while a transfer of its direction is in flight or has its own event pending. Words of other links always may
come (log entry 17). -/
def eventAllowed (w : EvtWord) (s : State) : Bool :=
  s.boundLink != some (evtLink w) ||
    (if w.getLsbD 0 then s.txInflight.isNone && s.txPending.isNone
     else s.rxInflight.isNone && s.rxPending.isNone)

end Sys2Proof.Machine
end

