-- ==== Sys2Proof/Machine/Sequencer.lean ====
section
/-! DEFINITION. The sequencer's step while a blocking command runs: one phase transition, or nothing while its hold
lasts (10_state.md R40; 43_rom_search.md R186; 70_reset_and_hazards.md R312). -/

namespace Sys2Proof.Machine

/-- One step of the sequencer, by the value of `seq`. At `IDLE` it has no step. -/
def phaseStep (s : State) : State :=
  match s.seq with
  | .idle => s
  | .rbWait => readBitPhase s
  | .rsWait => resetPhase s
  | .sReset => sResetPhase s
  | .sCmd => sCmdPhase s
  | .sIdIssue => sIdIssuePhase s
  | .sIdRx => sIdRxPhase s
  | .sCmpIssue => sCmpIssuePhase s
  | .sCmpRx => sCmpRxPhase s
  | .sDecide => sDecidePhase s
  | .sDir => sDirPhase s
  | .sFinish => sFinishPhase s

end Sys2Proof.Machine
end

