-- ==== Sys2Proof/Machine/Agents.lean ====
section
/-! DEFINITION. Whose turn it is and what each agent does with it (00_scope.md R10; 10_state.md R45;
44_init_and_events.md R218; 60_exceptions.md R283, R284), and how a word is placed so that the next step runs it. -/

namespace Sys2Proof.Machine

/-- The schedule's next turn; where the schedule lists none, a free value (U13, log entry 3). -/
def nextTurn (s : State) : Turn :=
  match s.turns with
  | t :: _ => t
  | [] => Config.freeTurn s.draws

/-- The state with that turn taken off. -/
def afterTurn (s : State) : State :=
  match s.turns with
  | _ :: ts => { s with turns := ts }
  | [] => { s with draws := s.draws + 1 }

/-- The polling context: the running command, else the host (R40, R284). -/
def pollingStep (s : State) : Result :=
  if s.seq = .idle then hostStep s else .next (phaseStep s)

/-- Delivery of the pending `TX_COMPLETE`; no move when none is pending (R218). -/
def deliverTx (s : State) : Result :=
  match s.txPending with
  | none => .next s
  | some link => exec (.txComplete link) { s with txPending := none }

/-- Delivery of the pending `RX_COMPLETE`; no move when none is pending (R218). -/
def deliverRx (s : State) : Result :=
  match s.rxPending with
  | none => .next s
  | some link => exec (.rxComplete link) { s with rxPending := none }

/-- Delivery of another event word on the event port; no move where the link's contract excludes it (R217). -/
def deliverEvent (w : EvtWord) (s : State) : Result :=
  if eventAllowed w s then exec (decodeEvent w) s else .next s

/-- The host's tick (R231). -/
def tickStep (s : State) : State := { s with clients := { s.clients with now := s.clients.now + 1 } }

/-- What an agent does with its turn. -/
def agentStep (t : Turn) (s : State) : Result :=
  match t with
  | .polling => pollingStep s
  | .linkTx => .next (linkTxStep s)
  | .linkRx => .next (linkRxStep s)
  | .txEvent => deliverTx s
  | .rxEvent => deliverRx s
  | .event w => deliverEvent w s
  | .tick => .next (tickStep s)

/-- One step of the machine. -/
def machineStep (s : State) : Result := agentStep (nextTurn s) (afterTurn s)

/-- Places a word on its port so that the next step runs it (log entry 7): a command word as the host's next
operation, with the sequencer at `IDLE` and the polling context's turn; an event word as the pending event of its
direction, with that event's turn. -/
def placeWord (p : PortWord) (s : State) : State :=
  match p with
  | .cmd w => { s with seq := .idle, program := .command w :: s.program, turns := .polling :: s.turns }
  | .evt w =>
    if w.getLsbD 0 then { s with txPending := some (evtLink w), turns := .txEvent :: s.turns }
    else { s with rxPending := some (evtLink w), turns := .rxEvent :: s.turns }

/-- Places a word of spec/opcode_table.json by its port; a number that is no word of the table changes nothing. -/
def placeTableWord (nbits w : Nat) (s : State) : State :=
  match tablePort nbits w with
  | none => s
  | some p => placeWord p s

end Sys2Proof.Machine
end

