-- ==== Sys2Proof/Machine/Step.lean ====
section
/-! DEFINITION. One step of the machine, and the placing of a word where the next step runs it. -/

namespace Sys2Proof.Machine

/-- One step: the agent whose turn it is moves (R10, R45). -/
def step (s : State) : Host.Outcome State Fault Refusal := machineStep s

/-- The state with a table word placed so that the very next step runs it (log entry 7). -/
def State.withFetchWord (s : State) (nbits w : Nat) : State := placeTableWord nbits w s

end Sys2Proof.Machine
end

