-- ==== Sys2Proof/Safety.lean ====
section
/-! DEFINITION. What claims are stated in: the invariant of the machine, the end of a run (70_reset_and_hazards.md
R316), the reserved command words (30_encoding.md R106, R107), and a search pass as a pure function of the bits read
(43_rom_search.md R181, R189 to R194). -/

namespace Sys2Proof.Machine

/-- `SEARCH_NEXT` past its reset phase: the phases in which `i` and `last_zero` are live (R41, R186). -/
def inSearch : Phase → Bool
  | .idle => false
  | .rbWait => false
  | .rsWait => false
  | .sReset => false
  | .sCmd => true
  | .sIdIssue => true
  | .sIdRx => true
  | .sCmpIssue => true
  | .sCmpRx => true
  | .sDecide => true
  | .sDir => true
  | .sFinish => true

/-- The phases of a search in which an index is being read or written. -/
def inBitLoop (p : Phase) : Bool := inSearch p && p != .sCmd && p != .sFinish

/-- The phases that wait for a reset exchange. -/
def inReset (p : Phase) : Bool := p == .rsWait || p == .sReset

/-- The phases that hold for a one-symbol receive. -/
def awaitsSymbol (p : Phase) : Bool := p == .rbWait || p == .sIdRx || p == .sCmpRx

/-- What every run keeps: the flag and in-flight invariants of R25 and R29, the ranges of R27, R28, R31 and R41, the
search-state invariant of R34, the timing each phase runs at (R126, R152, R155), and the parameter constraints of
R8. -/
structure StateInv (s : State) : Prop where
  /-- R8. -/
  params : paramsOk s.params = true
  /-- R22: a link is bound exactly once `INIT` has executed. -/
  bound : s.inited = s.boundLink.isSome
  /-- R21, R108: before `INIT` no command runs and nothing is in flight. -/
  fresh : s.inited = false → s.seq = .idle ∧ s.txInflight = none ∧ s.rxInflight = none
  /-- R23, R29: `tx_done` is 1 exactly when no transmit is in flight and no `TX_COMPLETE` is pending. -/
  txFlag : s.txDone = (s.txInflight.isNone && s.txPending.isNone)
  /-- R24, R29, for the receive direction. -/
  rxFlag : s.rxDone = (s.rxInflight.isNone && s.rxPending.isNone)
  /-- R29: an event is pending only after its transfer has left flight. -/
  txOne : s.txInflight = none ∨ s.txPending = none
  /-- R29, for the receive direction. -/
  rxOne : s.rxInflight = none ∨ s.rxPending = none
  /-- R138, R287: a pending event carries the bound link. -/
  txLink : s.txPending = none ∨ s.txPending = s.boundLink
  /-- R139, R287. -/
  rxLink : s.rxPending = none ∨ s.rxPending = s.boundLink
  /-- R127: a transmit in flight is of `tx_len` symbols, at least one. -/
  txCount : s.txInflight = none ∨ (s.txInflight = some s.txLen ∧ 1 ≤ s.txLen)
  /-- R128. -/
  rxCount : s.rxInflight = none ∨ (s.rxInflight = some s.rxLen ∧ 1 ≤ s.rxLen)
  /-- R27. -/
  txLen : s.txLen ≤ 64
  /-- R28. -/
  rxLen : s.rxLen ≤ 8
  /-- R31. -/
  discrepancy : s.lastDiscrepancy ≤ 64
  /-- R34: the flag is set only with `last_discrepancy` = 0. -/
  exhausted : s.lastDeviceFlag = true → s.lastDiscrepancy = 0
  /-- R185: a search goes past its reset phase only while devices remain. -/
  searching : inSearch s.seq = true → s.lastDeviceFlag = false
  /-- R41, R200. -/
  index : inBitLoop s.seq = true → 1 ≤ s.i ∧ s.i ≤ 64
  /-- R41, R192. -/
  zeroIndex : s.lastZero ≤ 64
  /-- R274: a search past its reset phase, and a `READ_BIT`, run at data-rate timing. -/
  dataTiming : inSearch s.seq = true ∨ s.seq = .rbWait → s.timing = .dataRate
  /-- R152, R157, R158: a reset exchange runs at reset timing with nothing outstanding. -/
  resetTiming : inReset s.seq = true → s.timing = .resetRate ∧ isIdle s = true
  /-- R166, R186: the phases that wait for a bit have armed one symbol. -/
  oneSymbol : awaitsSymbol s.seq = true → s.rxLen = 1

/-- The end of a run (R316). -/
def Final (s : State) : Prop :=
  s.seq = .idle ∧ s.program = [] ∧ s.txInflight = none ∧ s.rxInflight = none ∧
    s.txPending = none ∧ s.rxPending = none ∧ s.fault = none

/-- At `IDLE` the instruction ends with the reason `r`: a next state in which only the sticky mark `fault` may have
changed, and it keeps the first reason (R43, R272). -/
def EndsWith (i : Instr) (s : State) (r : Reason) : Prop :=
  exec i s = .next { s with fault := some (s.fault.getD r) }

/-- The preconditions of a data transfer command (R125, R126). -/
def ReadyForData (s : State) : Prop :=
  s.seq = .idle ∧ s.inited = true ∧ s.txDone = true ∧ s.rxDone = true ∧ s.timing = .dataRate

/-- The symbol of a bit (R121). -/
def bitSymbol (p : Params) (b : Bool) : Symbol := if b = true then p.symIdle else p.symZero

/-- The reserved command words: a reserved opcode (R106), or an immediate its format does not allow (R107). -/
def reservedWord (w : Byte) : Bool :=
  let op := w.toNat / 16
  let imm := w.toNat % 16
  op == 0 || 9 ≤ op ||
    ((op == 1 || op == 3 || 6 ≤ op) && imm != 0) ||
    (op == 2 && 2 ≤ imm) ||
    ((op == 4 || op == 5) && (imm == 0 || 9 ≤ imm))

/-- The bit written at index `i` when `a` and `b` were read, as R189 and R191 give it; none is the conflict of
R190. -/
def pureDir (ld : Nat) (prior : Rom) (i : Nat) (a b : Bool) : Option Bool :=
  match a, b with
  | true, true => none
  | true, false => some true
  | false, true => some false
  | false, false => some (chooseDir i ld (idBit prior i))

/-- A pass of R181 from index `i` on, given the bits read: the identity assembled and `last_zero`, or none on a
conflict. -/
def purePass (ld : Nat) (prior : Rom) : Nat → Rom → Nat → List (Bool × Bool) → Option (Rom × Nat)
  | _, rom, lz, [] => some (rom, lz)
  | i, rom, lz, (a, b) :: rest =>
    match pureDir ld prior i a b with
    | none => none
    | some d =>
      purePass ld prior (i + 1) (setIdBit rom i d) (if a = false ∧ b = false ∧ d = false then i else lz) rest

/-- Both transfers of a read slot run and complete, transmitter first. -/
def slotTurns : List Turn := [.linkTx, .txEvent, .linkRx, .rxEvent]

/-- One schedule of one identity bit: the two read slots, the decision and the write-back. -/
def bitTurns : List Turn :=
  [.polling] ++ slotTurns ++ [.polling, .polling] ++ slotTurns ++ [.polling, .polling, .polling, .linkTx, .txEvent]

/-- One schedule of a whole `SEARCH_NEXT` presented by the host: the command, the reset answer, the search command,
64 bits, the end of the pass. -/
def searchTurns : List Turn :=
  [.polling, .polling, .polling, .linkTx, .txEvent] ++ (List.replicate 64 bitTurns).flatten ++ [.polling]

/-- The symbols a bus sends for the pairs of bits read, in order. -/
def pairSymbols (p : Params) (pairs : List (Bool × Bool)) : List Symbol :=
  pairs.flatMap fun ab => [encodeBit p ab.1, encodeBit p ab.2]

end Sys2Proof.Machine
end

