-- ==== Sys2Proof/Certificates/Slice0/Obligations.lean ====
section
/-! DEFINITION. The statements for the provers, from the numbered rules of spec/. -/

open Sys2Proof Sys2Proof.Machine

/-! ## Encoding -/

/-- R96, R104: a word of each family, written out from its pattern, is read as the instruction it stands for. -/
def Obligations.SpecWordsDecode : Prop :=
  decodeCommand 0b00010000#8 = .ok .init ∧
  decodeCommand 0b00100001#8 = .ok (.writeBit true) ∧
  decodeCommand 0b00110000#8 = .ok .writeByte ∧
  decodeCommand 0b01000010#8 = .ok (.writeAddr 2) ∧
  decodeCommand 0b01011000#8 = .ok (.readIssue 8) ∧
  decodeCommand 0b01100000#8 = .ok .readBit ∧
  decodeCommand 0b01110000#8 = .ok .reset ∧
  decodeCommand 0b10000000#8 = .ok .searchNext ∧
  decodeEvent 0b000000010#9 = .rxComplete 1#8 ∧
  decodeEvent 0b100000001#9 = .txComplete 128#8

/-- Decoding an encoded well-formed instruction gives it back, for every operand (R96, R97, R104). -/
def Obligations.DecodeEncodeRoundTrip : Prop :=
  ∀ i : Instr, i.wf = true → decode (encode i) = .ok i

/-- Every word that decodes is the one word of its instruction, and that instruction is well formed (R98). -/
def Obligations.EveryWordHasOneMeaning : Prop :=
  ∀ (p : PortWord) (i : Instr), decode p = .ok i → i.wf = true ∧ encode i = p

/-- R106, R107: a command word is refused by the decoder exactly when it is reserved, and presented at `IDLE` it
changes nothing but the sticky mark, which then records `IllegalCommand` or keeps its first reason. -/
def Obligations.ReservedWordsRefused : Prop :=
  ∀ w : Byte,
    ((∃ e, decodeCommand w = .error e) ↔ reservedWord w = true) ∧
    (reservedWord w = true → ∀ s : State, s.seq = .idle →
      presentCommand w s = .next { s with fault := some (s.fault.getD .illegalCommand) })

/-! ## A step runs the decoded instruction -/

/-- On the polling context's turn at `IDLE` the host's command word is taken off the program and its instruction is
executed, on the state with the turn and the word gone (R95; the program and the schedule as data are the model's, log
entries 3 and 7). -/
def Obligations.StepRunsPresentedCommand : Prop :=
  ∀ (s : State) (w : Byte) (i : Instr) (ts : List Turn) (ops : List HostOp),
    s.seq = .idle → s.turns = .polling :: ts → s.program = .command w :: ops → decodeCommand w = .ok i →
    step s = exec i { s with turns := ts, program := ops }

/-- While a blocking command runs, the polling context's turn is one phase of the sequencer; the host's program waits
(R40; the schedule as data is the model's, log entry 3). -/
def Obligations.StepRunsSequencerWhileBlocked : Prop :=
  ∀ (s : State) (ts : List Turn), s.seq ≠ .idle → s.turns = .polling :: ts →
    step s = .next (phaseStep { s with turns := ts }) ∧ (phaseStep { s with turns := ts }).program = s.program

/-- A pending event, and any event word the link's contract allows, is executed as the event it decodes to (R104,
R218); an event word the contract excludes is no move (R217, the model's reading of the contract, log entry 17). -/
def Obligations.StepDeliversEvents : Prop :=
  ∀ (s : State) (ts : List Turn) (link : Link) (w : EvtWord),
    (s.turns = .txEvent :: ts → s.txPending = some link →
      step s = exec (.txComplete link) { s with turns := ts, txPending := none }) ∧
    (s.turns = .rxEvent :: ts → s.rxPending = some link →
      step s = exec (.rxComplete link) { s with turns := ts, rxPending := none }) ∧
    (s.turns = .event w :: ts → eventAllowed w s = true →
      step s = exec (decodeEvent w) { s with turns := ts }) ∧
    (s.turns = .event w :: ts → eventAllowed w s = false → step s = .next { s with turns := ts })

/-- A table word placed by `withFetchWord` is what the very next step executes (log entries 7, 14): a command on the
state with `seq` at `IDLE`, an event on the state with the pending event of its direction taken. -/
def Obligations.PlacedWordRunsNext : Prop :=
  ∀ (s : State) (nbits w : Nat) (i : Instr), decodeTableWord nbits w = some i →
    (i.isCommand = true → step (s.withFetchWord nbits w) = exec i { s with seq := .idle }) ∧
    (∀ link, i = .txComplete link → step (s.withFetchWord nbits w) = exec i { s with txPending := none }) ∧
    (∀ link, i = .rxComplete link → step (s.withFetchWord nbits w) = exec i { s with rxPending := none })

/-! ## The commands -/

/-- R211, R213: `INIT` is refused without a written `LINK_IN`, and while a transfer is outstanding; otherwise it
completes with every register of the rule at the rule's value, `timing` and the buffer contents unspecified, and
nothing else changed. -/
def Obligations.InitBindsAndResets : Prop :=
  ∀ s : State, s.seq = .idle →
    (s.linkIn = none → EndsWith .init s .operandUnwritten) ∧
    (s.linkIn.isSome = true → s.inited = true → isIdle s = false → EndsWith .init s .initWhileBusy) ∧
    (∀ link, s.linkIn = some link → s.inited = false ∨ isIdle s = true →
      ∃ t, exec .init s = .next t ∧
        t = { s with
          inited := true, boundLink := some link
          lastDiscrepancy := 0, lastDeviceFlag := false, lastRom := Vector.replicate 8 0#8
          txDone := true, rxDone := true, txLen := 0, rxLen := 0, txInflight := none, rxInflight := none
          rOk := false, rBit := false, rPresence := .timeout, rRom := Vector.replicate 8 0#8
          seq := .idle
          timing := t.timing, txBuf := t.txBuf, rxBuf := t.rxBuf, draws := t.draws })

/-- R170, R121: `WRITE_BIT b` checks `inited`, the flags and the timing in that order, and otherwise completes: one
symbol in `tx_buf[0]`, the transmit of one symbol issued, nothing else changed. -/
def Obligations.WriteBitIssuesOneSymbol : Prop :=
  ∀ (s : State) (b : Bool), s.seq = .idle →
    (s.inited = false → EndsWith (.writeBit b) s .notInitialised) ∧
    (s.inited = true → isIdle s = false → EndsWith (.writeBit b) s .transportBusy) ∧
    (s.inited = true → isIdle s = true → s.timing = .resetRate → EndsWith (.writeBit b) s .timingViolation) ∧
    (ReadyForData s →
      ∃ t, exec (.writeBit b) s = .next t ∧ t.txBuf[0]? = some (bitSymbol s.params b) ∧
        t = { s with txBuf := t.txBuf, txLen := 1, txDone := false, txInflight := some 1, draws := t.draws })

/-- R130, R122: `WRITE_BYTE` makes its checks in the order of the rule, and otherwise completes: symbol `b` of
`tx_buf` carries bit `b` of `DATA_IN`, the transmit of eight symbols is issued, nothing else changes. -/
def Obligations.WriteByteIssuesEightSymbols : Prop :=
  ∀ s : State, s.seq = .idle →
    (s.inited = false → EndsWith .writeByte s .notInitialised) ∧
    (s.inited = true → s.dataIn = none → EndsWith .writeByte s .operandUnwritten) ∧
    (s.inited = true → s.dataIn.isSome = true → isIdle s = false → EndsWith .writeByte s .transportBusy) ∧
    (s.inited = true → s.dataIn.isSome = true → isIdle s = true → s.timing = .resetRate →
      EndsWith .writeByte s .timingViolation) ∧
    (∀ v, ReadyForData s → s.dataIn = some v →
      ∃ t, exec .writeByte s = .next t ∧
        (∀ b, b < 8 → t.txBuf[b]? = some (bitSymbol s.params (v.getLsbD b))) ∧
        t = { s with txBuf := t.txBuf, txLen := 8, txDone := false, txInflight := some 8, draws := t.draws })

/-- R133, R63: `WRITE_ADDR n` refuses a count out of 1..8, makes its checks in order, and otherwise completes: symbol
`8j + b` carries bit `b` of `ADDR_IN[j]`, one transmit of `8n` symbols is issued, nothing else changes. -/
def Obligations.WriteAddrIssuesOneTransfer : Prop :=
  ∀ (s : State) (n : Nat), s.seq = .idle →
    ((n = 0 ∨ 8 < n) → EndsWith (.writeAddr n) s .illegalCommand) ∧
    (1 ≤ n → n ≤ 8 →
      (s.inited = false → EndsWith (.writeAddr n) s .notInitialised) ∧
      (s.inited = true → (∃ j, j < n ∧ s.addrIn[j]? = some none) → EndsWith (.writeAddr n) s .operandUnwritten) ∧
      (∀ a : Nat → Byte, (∀ j, j < n → s.addrIn[j]? = some (some (a j))) →
        (s.inited = true → isIdle s = false → EndsWith (.writeAddr n) s .transportBusy) ∧
        (s.inited = true → isIdle s = true → s.timing = .resetRate →
          EndsWith (.writeAddr n) s .timingViolation) ∧
        (ReadyForData s →
          ∃ t, exec (.writeAddr n) s = .next t ∧
            (∀ j b, j < n → b < 8 → t.txBuf[8 * j + b]? = some (bitSymbol s.params ((a j).getLsbD b))) ∧
            t = { s with
              txBuf := t.txBuf, txLen := 8 * n, txDone := false, txInflight := some (8 * n), draws := t.draws })))

/-- R136, R75: `READ_ISSUE n` refuses a count out of 1..8, makes its checks in order, and otherwise completes: `n`
idle symbols, a receive and a transmit of `n` symbols issued in one step, both flags cleared, nothing else changed;
`rx_buf` is unspecified until the completion. -/
def Obligations.ReadIssueArmsReceive : Prop :=
  ∀ (s : State) (n : Nat), s.seq = .idle →
    ((n = 0 ∨ 8 < n) → EndsWith (.readIssue n) s .illegalCommand) ∧
    (1 ≤ n → n ≤ 8 →
      (s.inited = false → EndsWith (.readIssue n) s .notInitialised) ∧
      (s.inited = true → isIdle s = false → EndsWith (.readIssue n) s .transportBusy) ∧
      (s.inited = true → isIdle s = true → s.timing = .resetRate → EndsWith (.readIssue n) s .timingViolation) ∧
      (ReadyForData s →
        ∃ t, exec (.readIssue n) s = .next t ∧
          (∀ k, k < n → t.txBuf[k]? = some s.params.symIdle) ∧
          t = { s with
            txBuf := t.txBuf, txLen := n, txDone := false, txInflight := some n
            rxBuf := t.rxBuf, rxLen := n, rxDone := false, rxInflight := some n, draws := t.draws }))

/-- R166: `READ_BIT` makes its checks in order; otherwise it issues one read slot and goes to `RB_WAIT`, and nothing
else changes. At `RB_WAIT` nothing happens while `rx_done` is 0; with `rx_done` at 1 it completes: `R_BIT` is 1
exactly when the received symbol is the idle symbol, whatever `tx_done` is. -/
def Obligations.ReadBitIssuesHoldsReturns : Prop :=
  ∀ s : State,
    (s.seq = .idle →
      (s.inited = false → EndsWith .readBit s .notInitialised) ∧
      (s.inited = true → isIdle s = false → EndsWith .readBit s .transportBusy) ∧
      (s.inited = true → isIdle s = true → s.timing = .resetRate → EndsWith .readBit s .timingViolation) ∧
      (ReadyForData s →
        ∃ t, exec .readBit s = .next t ∧ t.txBuf[0]? = some s.params.symIdle ∧
          t = { s with
            txBuf := t.txBuf, txLen := 1, txDone := false, txInflight := some 1
            rxBuf := t.rxBuf, rxLen := 1, rxDone := false, rxInflight := some 1
            seq := .rbWait, draws := t.draws })) ∧
    (s.seq = .rbWait →
      (s.rxDone = false → phaseStep s = s) ∧
      (∀ x, s.rxDone = true → s.rxBuf[0]? = some x →
        phaseStep s = { s with rBit := decide (x = s.params.symIdle), seq := .idle }))

/-- R151 to R153: `RESET` checks `inited` and the flags, at either timing; otherwise its first step sets `timing` to
`RESET_RATE` and waits for the link, and nothing else changes. -/
def Obligations.ResetStartsExchange : Prop :=
  ∀ s : State, s.seq = .idle →
    (s.inited = false → EndsWith .reset s .notInitialised) ∧
    (s.inited = true → isIdle s = false → EndsWith .reset s .transportBusy) ∧
    (s.inited = true → isIdle s = true →
      exec .reset s = .next { s with timing := .resetRate, seq := .rsWait })

/-- R182, R183, R186: `SEARCH_NEXT` checks `inited` and the flags, at either timing and whatever the search state;
otherwise its first step starts the reset exchange in phase `S_RESET`, and nothing else changes. -/
def Obligations.SearchStartsWithReset : Prop :=
  ∀ s : State, s.seq = .idle →
    (s.inited = false → EndsWith .searchNext s .notInitialised) ∧
    (s.inited = true → isIdle s = false → EndsWith .searchNext s .transportBusy) ∧
    (s.inited = true → isIdle s = true →
      exec .searchNext s = .next { s with timing := .resetRate, seq := .sReset })

/-- R215, R216: the two events complete in every state: `RX_COMPLETE` sets `rx_done`, `TX_COMPLETE` sets `tx_done`, if
the block is initialised and the link is the bound one; otherwise they have no effect; they write nothing else. -/
def Obligations.CompletionEventsSetOnlyTheirFlag : Prop :=
  ∀ (s : State) (link : Link),
    (s.inited = true → s.boundLink = some link →
      exec (.rxComplete link) s = .next { s with rxDone := true } ∧
      exec (.txComplete link) s = .next { s with txDone := true }) ∧
    (s.inited = false ∨ s.boundLink ≠ some link →
      exec (.rxComplete link) s = .next s ∧ exec (.txComplete link) s = .next s)

/-- R95, D28: a command handed to the block while another runs stops the machine by name (log entry 2); the events do
not. -/
def Obligations.CommandWhileRunningStops : Prop :=
  ∀ (s : State) (i : Instr), s.seq ≠ .idle →
    (i.isCommand = true → exec i s = .fault .commandWhileRunning) ∧
    (i.isCommand = false → ∃ t, exec i s = .next t)

/-! ## The reset exchange -/

/-- R154 to R157: when the link answers, `RESET` returns: no echo is `P_TIMEOUT`, the transmitted symbol is
`P_NO_CHANGE`, any other symbol is `P_OK`; `timing` goes to `DATA_RATE` on `P_OK` only; the exchange is on the wire;
flags, buffers and search state are unchanged. Stated for every answer `e` of the bus oracle. -/
def Obligations.ResetClassifiesEcho : Prop :=
  ∀ (s : State) (e : Option Symbol) (b : Bus),
    s.seq = .rsWait → busResetEcho s.params s.bus s.wire = (e, b) →
    ∃ p tm, phaseStep s = { s with
        bus := b, wire := s.wire ++ [.wReset s.params.symReset e]
        rPresence := p, timing := tm, seq := .idle } ∧
      (e = none → p = .timeout ∧ tm = s.timing) ∧
      (e = some s.params.symReset → p = .noChange ∧ tm = s.timing) ∧
      (∀ x, e = some x → x ≠ s.params.symReset → p = .ok ∧ tm = .dataRate)

/-- A whole `RESET` by two steps of the machine: presented by the host from `IDLE` with both flags 1, answered by the
bus, back at `IDLE` with both flags 1 (R151, R155, R156). -/
def Obligations.ResetRunsToItsOutcome : Prop :=
  ∀ (s : State) (e : Option Symbol) (b : Bus) (ts : List Turn) (ops : List HostOp),
    s.seq = .idle → s.inited = true → isIdle s = true → busResetEcho s.params s.bus s.wire = (e, b) →
    s.turns = .polling :: .polling :: ts → s.program = .command 0x70#8 :: ops →
    ∃ t, Sys2Proof.core.run 2 s = .next t ∧ t.seq = .idle ∧ isIdle t = true ∧ t.program = ops ∧ t.turns = ts ∧
      t.wire = s.wire ++ [.wReset s.params.symReset e] ∧
      (t.rPresence = .ok ↔ ∃ x, e = some x ∧ x ≠ s.params.symReset) ∧
      (t.rPresence = .timeout ↔ e = none) ∧
      (t.timing = .dataRate ↔ t.rPresence = .ok)

/-! ## The link agents -/

/-- R138, on its turn in the schedule (log entry 3): the link transmitter puts `tx_buf[0..k-1]` on the wire in order
at the current timing and makes `TX_COMPLETE(bound_link)` pending; the flag stays 0 until delivery. With nothing in
flight it has no step. -/
def Obligations.LinkTransmitterSends : Prop :=
  ∀ (s : State) (k : Nat) (ts : List Turn), s.turns = .linkTx :: ts →
    (s.txInflight = some k → k ≤ 64 →
      ∃ syms : List Symbol, syms.length = k ∧ (∀ j, j < k → syms[j]? = s.txBuf[j]?) ∧
        step s = .next { s with
          turns := ts, wire := s.wire ++ [.wTx s.timing syms], txInflight := none, txPending := s.boundLink }) ∧
    (s.txInflight = none → step s = .next { s with turns := ts })

/-- R139, R70, on its turn in the schedule (log entry 3): the link receiver lands exactly the oracle's `n` symbols in
`rx_buf[0..n-1]`, records them on the wire and makes `RX_COMPLETE(bound_link)` pending; the flag stays 0 until
delivery. With nothing armed it has no step. -/
def Obligations.LinkReceiverLands : Prop :=
  ∀ (s : State) (n : Nat) (ts : List Turn), s.turns = .linkRx :: ts →
    (s.rxInflight = some n → n ≤ 8 →
      ∃ syms : List Symbol, syms = (busReadSymbols s.params s.bus s.wire n).1 ∧ syms.length = n ∧
        ∃ t, step s = .next t ∧
          (∀ k, k < n → t.rxBuf[k]? = syms[k]?) ∧ (∀ k, n ≤ k → t.rxBuf[k]? = s.rxBuf[k]?) ∧
          t = { s with
            turns := ts, rxBuf := t.rxBuf, bus := t.bus, wire := s.wire ++ [.wRx s.timing syms]
            rxInflight := none, rxPending := s.boundLink }) ∧
    (s.rxInflight = none → step s = .next { s with turns := ts })

/-- R283: with both events of one read pending, the two orders of delivery end in the same state. -/
def Obligations.CompletionOrderDoesNotMatter : Prop :=
  ∀ (s : State) (tl rl : Link) (ts : List Turn), s.txPending = some tl → s.rxPending = some rl →
    ∃ t, Sys2Proof.core.run 2 { s with turns := .txEvent :: .rxEvent :: ts } = .next t ∧
      Sys2Proof.core.run 2 { s with turns := .rxEvent :: .txEvent :: ts } = .next t

/-- A whole `READ_BIT` by four steps of the machine, the transmit left outstanding (R166, R168; the schedule of the
spec's vector V29a). -/
def Obligations.ReadBitRunsToItsBit : Prop :=
  ∀ (s : State) (link : Link) (x : Symbol) (es : List (Option Symbol)) (xs : List Symbol)
    (ts : List Turn) (ops : List HostOp),
    ReadyForData s → s.boundLink = some link → s.bus = .scripted es (x :: xs) →
    s.turns = .polling :: .linkRx :: .rxEvent :: .polling :: ts → s.program = .command 0x60#8 :: ops →
    ∃ t, Sys2Proof.core.run 4 s = .next t ∧ t.rBit = decide (x = s.params.symIdle) ∧ t.seq = .idle ∧
      t.rxDone = true ∧ t.txDone = false ∧ t.txInflight = some 1 ∧ t.rxBuf[0]? = some x ∧
      t.wire = s.wire ++ [.wRx .dataRate [x]] ∧ t.program = ops ∧ t.turns = ts

/-! ## The search -/

/-- R184: absence in the reset phase aborts: false, `R_PRESENCE` as classified, the search state cleared, `last_rom`
unchanged, `R_ROM` unspecified, reset timing kept, no transfer issued. -/
def Obligations.SearchAbortsOnAbsence : Prop :=
  ∀ (s : State) (e : Option Symbol) (b : Bus),
    s.seq = .sReset → busResetEcho s.params s.bus s.wire = (e, b) → (e = none ∨ e = some s.params.symReset) →
    ∃ rom n, phaseStep s = { s with
      bus := b, wire := s.wire ++ [.wReset s.params.symReset e]
      rPresence := if e = none then .timeout else .noChange
      lastDiscrepancy := 0, lastDeviceFlag := false, rOk := false, rRom := rom, seq := .idle, draws := n }

/-- R185: with presence and `last_device_flag` = 1 the call is exhausted: false, nothing sent, the search state,
`R_ROM` and `last_rom` unchanged, data-rate timing. With the flag at 0 the search goes on to `S_CMD`. -/
def Obligations.SearchExhaustionKeepsState : Prop :=
  ∀ (s : State) (x : Symbol) (b : Bus),
    s.seq = .sReset → busResetEcho s.params s.bus s.wire = (some x, b) → x ≠ s.params.symReset →
    (s.lastDeviceFlag = true →
      phaseStep s = { s with
        bus := b, wire := s.wire ++ [.wReset s.params.symReset (some x)]
        rPresence := .ok, timing := .dataRate, rOk := false, seq := .idle }) ∧
    (s.lastDeviceFlag = false →
      phaseStep s = { s with
        bus := b, wire := s.wire ++ [.wReset s.params.symReset (some x)]
        rPresence := .ok, timing := .dataRate, seq := .sCmd })

/-- R187, R189: the phases that issue a transfer do nothing while a flag is 0, and the phases that take a bit do
nothing while `rx_done` is 0. -/
def Obligations.SearchHoldsForCompletions : Prop :=
  ∀ s : State,
    ((s.seq = .sCmd ∨ s.seq = .sIdIssue ∨ s.seq = .sCmpIssue ∨ s.seq = .sDir) → isIdle s = false → phaseStep s = s) ∧
    ((s.seq = .sIdRx ∨ s.seq = .sCmpRx) → s.rxDone = false → phaseStep s = s)

/-- R188, R186: `S_CMD` transmits the search command byte, symbol `b` carrying its bit `b`, and starts at index 1 with
`last_zero` 0. -/
def Obligations.SearchSendsCommandByte : Prop :=
  ∀ s : State, s.seq = .sCmd → isIdle s = true → s.timing = .dataRate →
    ∃ t, phaseStep s = t ∧
      (∀ b, b < 8 → t.txBuf[b]? = some (bitSymbol s.params (s.params.cmdSearchRom.getLsbD b))) ∧
      t = { s with
        txBuf := t.txBuf, txLen := 8, txDone := false, txInflight := some 8
        i := 1, lastZero := 0, seq := .sIdIssue, draws := t.draws }

/-- R186: the read slots of an index and the bits taken from them: one idle symbol out and one symbol armed, then
`id_b`, again one slot, then `cmp_b`. That `R_BIT` stays is the model's reading (log entry 16). -/
def Obligations.SearchReadsBitAndComplement : Prop :=
  ∀ s : State,
    (∀ p q, (p = .sIdIssue ∧ q = .sIdRx) ∨ (p = .sCmpIssue ∧ q = .sCmpRx) →
      s.seq = p → isIdle s = true → s.timing = .dataRate →
      ∃ t, phaseStep s = t ∧ t.txBuf[0]? = some s.params.symIdle ∧
        t = { s with
          txBuf := t.txBuf, txLen := 1, txDone := false, txInflight := some 1
          rxBuf := t.rxBuf, rxLen := 1, rxDone := false, rxInflight := some 1, seq := q, draws := t.draws }) ∧
    (∀ x, s.rxDone = true → s.rxBuf[0]? = some x →
      (s.seq = .sIdRx → phaseStep s = { s with idB := decide (x = s.params.symIdle), seq := .sCmpIssue }) ∧
      (s.seq = .sCmpRx → phaseStep s = { s with cmpB := decide (x = s.params.symIdle), seq := .sDecide }))

/-- R190: both bits 1 is a conflict: false at once, the search state cleared, `last_rom` and `R_ROM` unspecified, no
direction written and no transfer issued. -/
def Obligations.SearchConflictRestarts : Prop :=
  ∀ s : State, s.seq = .sDecide → s.idB = true → s.cmpB = true →
    ∃ r1 r2 n, phaseStep s = { s with
      lastDiscrepancy := 0, lastDeviceFlag := false, lastRom := r1, rRom := r2, rOk := false, seq := .idle, draws := n }

/-- R189, R191 to R193: otherwise the direction is the common bit, or at a discrepancy the replayed bit below
`last_discrepancy`, 1 at it, 0 above it; `last_zero` becomes `i` exactly at a discrepancy resolved to 0; and identity
bit `i` of `rom_work`, and no other, becomes the direction. -/
def Obligations.SearchChoosesDirection : Prop :=
  ∀ s : State, s.seq = .sDecide → ¬(s.idB = true ∧ s.cmpB = true) → 1 ≤ s.i → s.i ≤ 64 →
    ∃ d rom, phaseStep s = { s with
        dir := d, romWork := rom, seq := .sDir
        lastZero := if s.idB = false ∧ s.cmpB = false ∧ d = false then s.i else s.lastZero } ∧
      (s.idB ≠ s.cmpB → d = s.idB) ∧
      (s.idB = false → s.cmpB = false →
        (s.i < s.lastDiscrepancy → d = idBit s.lastRom s.i) ∧
        (s.i = s.lastDiscrepancy → d = true) ∧
        (s.lastDiscrepancy < s.i → d = false)) ∧
      idBit rom s.i = d ∧
      (∀ j, 1 ≤ j → j ≤ 64 → j ≠ s.i → idBit rom j = idBit s.romWork j)

/-- R193, R186: the direction is written back with one symbol; below index 64 the next index follows, after index 64
the end of the pass. -/
def Obligations.SearchWritesBackDirection : Prop :=
  ∀ s : State, s.seq = .sDir → isIdle s = true → s.timing = .dataRate →
    ∃ t, phaseStep s = t ∧ t.txBuf[0]? = some (bitSymbol s.params s.dir) ∧
      t = { s with
        txBuf := t.txBuf, txLen := 1, txDone := false, txInflight := some 1, draws := t.draws
        i := if s.i < 64 then s.i + 1 else s.i
        seq := if s.i < 64 then .sIdIssue else .sFinish }

/-- R194: the end of a pass: `last_discrepancy` becomes `last_zero`, `last_device_flag` is set if that is 0 and stays
otherwise, the assembled identity goes to `last_rom` and `R_ROM`, `R_OK` is 1. -/
def Obligations.SearchFinishesPass : Prop :=
  ∀ s : State, s.seq = .sFinish →
    phaseStep s = { s with
      lastDiscrepancy := s.lastZero
      lastDeviceFlag := if s.lastZero = 0 then true else s.lastDeviceFlag
      lastRom := s.romWork, rRom := s.romWork, rOk := true, seq := .idle }

/-- R64: identity bit `i` is bit `(i-1) mod 8` of byte `(i-1) div 8`; written, it is the bit read back, and every
other identity bit is kept. -/
def Obligations.IdentityBitWrittenReadsBack : Prop :=
  ∀ (rom : Rom) (i : Nat) (b : Bool), 1 ≤ i → i ≤ 64 →
    (∀ v : Byte, rom[(i - 1) / 8]? = some v → idBit rom i = v.getLsbD ((i - 1) % 8)) ∧
    ∀ j, 1 ≤ j → j ≤ 64 → idBit (setIdBit rom i b) j = if j = i then b else idBit rom j

/-- A whole `SEARCH_NEXT`, run by the machine's own steps over a bus that answers any 64 pairs of bits, computes what
the pseudocode of R181 computes from those bits: on success the identity, `last_discrepancy`, `last_device_flag` and
`R_OK` of R194; on a conflict the false return of R190. It speaks of one schedule, in which each transfer completes
before the sequencer's next turn. -/
def Obligations.SearchRunComputesThePass : Prop :=
  ∀ (s : State) (link : Link) (x : Symbol) (es : List (Option Symbol)) (xs : List Symbol)
    (pairs : List (Bool × Bool)) (ts : List Turn),
    paramsOk s.params = true → s.seq = .idle → s.inited = true → isIdle s = true → s.boundLink = some link →
    s.lastDeviceFlag = false → x ≠ s.params.symReset → pairs.length = 64 →
    s.bus = .scripted (some x :: es) (pairSymbols s.params pairs ++ xs) →
    s.program = [.command 0x80#8] → s.turns = searchTurns ++ ts →
    ∃ t, Sys2Proof.core.run searchTurns.length s = .next t ∧ t.seq = .idle ∧ t.rPresence = .ok ∧
      t.fault = s.fault ∧ t.timing = .dataRate ∧
      match purePass s.lastDiscrepancy s.lastRom 1 s.romWork 0 pairs with
      | some (rom, lz) =>
        t.rOk = true ∧ t.rRom = rom ∧ t.lastRom = rom ∧ t.lastDiscrepancy = lz ∧
          t.lastDeviceFlag = decide (lz = 0)
      | none => t.rOk = false ∧ t.lastDiscrepancy = 0 ∧ t.lastDeviceFlag = false

/-- Over the reference wired-AND bus (general knowledge, log entry 31) with at least one device, a whole `SEARCH_NEXT`
under the same schedule returns true, and the identity it returns is that of a device on the bus, whatever
`last_discrepancy` and `last_rom` were. -/
def Obligations.SearchReturnsADeviceOnTheBus : Prop :=
  ∀ (s : State) (link : Link) (devices : List Rom) (ts : List Turn),
    paramsOk s.params = true → s.seq = .idle → s.inited = true → isIdle s = true → s.boundLink = some link →
    s.lastDeviceFlag = false → s.params.symReset ≠ 0xE0#8 → devices ≠ [] →
    s.bus = .wiredAnd devices → s.program = [.command 0x80#8] → s.turns = searchTurns ++ ts →
    ∃ t, Sys2Proof.core.run searchTurns.length s = .next t ∧ t.seq = .idle ∧ t.rOk = true ∧ t.rRom ∈ devices ∧
      t.lastRom = t.rRom

/-! ## Status reads -/

/-- R37, R219, R275: `RX_BYTE` before `INIT` is refused, invalid it faults, and valid its bit `j` is 1 exactly when
`rx_buf[j]` is the idle symbol; `RX_BIT` likewise with symbol 0 and at least one symbol received. -/
def Obligations.RxViewsDecodeReceivedSymbols : Prop :=
  ∀ s : State,
    (s.inited = false → ∀ v, readView v s = .error .notInitialised) ∧
    (s.inited = true →
      ((s.rxDone = false ∨ s.rxLen ≠ 8) → readView .rxByte s = .error .rxViewInvalid) ∧
      (s.rxDone = true → s.rxLen = 8 →
        ∃ v : Byte, readView .rxByte s = .ok (.byte v) ∧
          ∀ j x, j < 8 → s.rxBuf[j]? = some x → v.getLsbD j = decide (x = s.params.symIdle)) ∧
      ((s.rxDone = false ∨ s.rxLen = 0) → readView .rxBit s = .error .rxViewInvalid) ∧
      (∀ x, s.rxDone = true → 1 ≤ s.rxLen → s.rxBuf[0]? = some x →
        readView .rxBit s = .ok (.bit (decide (x = s.params.symIdle)))))

/-- R65, R61: with distinct symbols for 0 and 1 (R8), `RX_BYTE` of the eight symbols of a byte is that byte. -/
def Obligations.RxByteInvertsTheEncoding : Prop :=
  ∀ (s : State) (v : Byte), paramsOk s.params = true → s.inited = true → s.rxDone = true → s.rxLen = 8 →
    s.rxBuf.toList = encodeByte s.params v → readView .rxByte s = .ok (.byte v)

/-- R37, R94, R219: the other reads give the flags with `tx_done` in bit 0 and `rx_done` in bit 1, and the result
registers. In every state, initialised or not, a host read that gives a value changes nothing but the host's own record
of it (log entry 27), and a read that is refused or faults (R219, R275) changes nothing but the sticky mark, which then
records that reason or keeps its first one (R272). -/
def Obligations.StatusReadsReportRegisters : Prop :=
  ∀ s : State,
    (s.inited = true →
      (∃ f : BitVec 2, readView .flags s = .ok (.flags f) ∧ f.getLsbD 0 = s.txDone ∧ f.getLsbD 1 = s.rxDone) ∧
      readView .rOk s = .ok (.bit s.rOk) ∧ readView .rBit s = .ok (.bit s.rBit) ∧
      readView .rRom s = .ok (.rom s.rRom) ∧
      readView .rPresence s =
        .ok (.presence (match s.rPresence with
          | .ok => 0#2
          | .timeout => 1#2
          | .noChange => 2#2))) ∧
    ∀ v,
      (∀ x, readView v s = .ok x →
        hostOp (.read v) s = .next { s with clients := { s.clients with seen := s.clients.seen ++ [x] } }) ∧
      (∀ r, readView v s = .error r → hostOp (.read v) s = .next { s with fault := some (s.fault.getD r) })

/-! ## Whole-machine rules -/

/-- R44, R300: after power-on the block is not initialised, no link is bound, no operand register has been written,
nothing is on the wire and no fault is marked; so every command but `INIT` is refused `NotInitialised`, and `INIT` is
refused `OperandUnwritten`. -/
def Obligations.PowerOnRefusesCommands : Prop :=
  State.reset.inited = false ∧ State.reset.boundLink = none ∧ State.reset.linkIn = none ∧
  State.reset.dataIn = none ∧ (∀ j, j < 8 → State.reset.addrIn[j]? = some none) ∧
  State.reset.wire = [] ∧ State.reset.fault = none ∧
  (∀ i : Instr, i.isCommand = true → i.wf = true → i ≠ .init →
    exec i State.reset = .next { State.reset with fault := some .notInitialised }) ∧
  exec .init State.reset = .next { State.reset with fault := some .operandUnwritten }

/-- The invariant holds after power-on (its values before `INIT` are the model's choice, log entry 8). -/
def Obligations.ResetMeetsInvariant : Prop := StateInv State.reset

/-- Every step of the machine keeps the invariant: the flags tell exactly what is in flight or pending (R25, R29), the
search state stays legal (R31, R34), the search and `READ_BIT` run at data-rate timing (R274), and a reset exchange
runs with nothing outstanding (R157). -/
def Obligations.StepKeepsInvariant : Prop :=
  ∀ s t : State, StateInv s → step s = .next t → StateInv t

/-- No step of the machine stops, from any state whatever: the spec's faults and refusals leave a next state with the
mark set (R272, log entry 1), holds leave the state as it is (R312), and commands come only at `IDLE` (R95). -/
def Obligations.StepNeverStops : Prop :=
  ∀ s : State, ∃ t, step s = .next t

/-- R43: the mark `fault` keeps the first reason raised through every step. -/
def Obligations.FaultMarkIsNeverCleared : Prop :=
  ∀ (s t : State) (r : Reason), step s = .next t → s.fault = some r → t.fault = some r

/-- R281: the delivery of an event changes no register but the two completion flags, and sets them only; beside them
only the schedule and the pending event, the model's own (log entries 3 and 17), move on. -/
def Obligations.EventsTouchOnlyTheFlags : Prop :=
  ∀ (s t : State) (tn : Turn) (w : EvtWord) (ts : List Turn),
    (tn = .txEvent ∨ tn = .rxEvent ∨ tn = .event w) → s.turns = tn :: ts → step s = .next t →
    t = { s with
      turns := ts, txDone := t.txDone, rxDone := t.rxDone, txPending := t.txPending, rxPending := t.rxPending } ∧
    (s.txDone = true → t.txDone = true) ∧ (s.rxDone = true → t.rxDone = true)

/-- R124: a step changes `timing` only when `RESET` or `SEARCH_NEXT` starts or ends its reset exchange, or when `INIT`
leaves it unspecified. -/
def Obligations.OnlyResetSwitchesTiming : Prop :=
  ∀ s t : State, step s = .next t → t.timing ≠ s.timing →
    s.seq = .rsWait ∨ s.seq = .sReset ∨
      (s.seq = .idle ∧ ∃ ops, s.program = .command 0x10#8 :: ops ∨ s.program = .command 0x70#8 :: ops ∨
        s.program = .command 0x80#8 :: ops)

/-- R34: the search state is changed only by the ROM Search Engine and by `INIT`. -/
def Obligations.OnlySearchAndInitWriteSearchState : Prop :=
  ∀ s t : State, step s = .next t →
    (t.lastDiscrepancy ≠ s.lastDiscrepancy ∨ t.lastDeviceFlag ≠ s.lastDeviceFlag ∨ t.lastRom ≠ s.lastRom) →
    s.seq = .sReset ∨ s.seq = .sDecide ∨ s.seq = .sFinish ∨
      (s.seq = .idle ∧ ∃ ops, s.program = .command 0x10#8 :: ops)

/-- R27, R79: while a transmit is outstanding no step writes `tx_buf`, in every state that meets the invariant. -/
def Obligations.TransmitBufferStableInFlight : Prop :=
  ∀ s t : State, StateInv s → step s = .next t → s.txDone = false → t.txBuf = s.txBuf

/-- R25, R73: a transfer in either direction is put in flight only from a state in which both completion flags are 1.
-/
def Obligations.TransfersIssueOnlyWhenIdle : Prop :=
  ∀ s t : State, step s = .next t →
    (s.txInflight = none ∧ t.txInflight ≠ none) ∨ (s.rxInflight = none ∧ t.rxInflight ≠ none) →
    s.txDone = true ∧ s.rxDone = true

/-- R274: inside a blocking command no step raises a fault, in every state that meets the invariant; in particular a
search never meets a `TimingViolation`. -/
def Obligations.BlockingCommandsRaiseNothing : Prop :=
  ∀ s t : State, StateInv s → s.seq ≠ .idle → step s = .next t → t.fault = s.fault

/-- R167, R312: the machine leaves `RB_WAIT` only with `rx_done` at 1, and returns to `IDLE`. -/
def Obligations.ReadBitNeverReturnsEarly : Prop :=
  ∀ s t : State, step s = .next t → s.seq = .rbWait → t.seq ≠ .rbWait → s.rxDone = true ∧ t.seq = .idle

/-! ## The host clients -/

/-- R36: the host's writes of the operand registers write that register and no other. -/
def Obligations.HostWritesOperandRegisters : Prop :=
  ∀ (s : State) (link : Link) (v : Byte) (j : Fin 8),
    hostOp (.setLinkIn link) s = .next { s with linkIn := some link } ∧
    hostOp (.setDataIn v) s = .next { s with dataIn := some v } ∧
    ∃ t, hostOp (.setAddrIn j v) s = .next t ∧
      t = { s with addrIn := t.addrIn } ∧ t.addrIn[j.val]? = some (some v) ∧
      ∀ k, k ≠ j.val → t.addrIn[k]? = s.addrIn[k]?

/-- R247: the decoded temperature, in sixteenths, is `256 msb + lsb` below 32768 and that less 65536 from there on. -/
def Obligations.TemperatureIsTwosComplement : Prop :=
  ∀ msb lsb : Byte, decodeTemperature msb lsb =
    if msb.toNat < 128 then (256 * msb.toNat + lsb.toNat : Int)
    else (256 * msb.toNat + lsb.toNat : Int) - 65536

/-- R233: `Measure` moves an `Idle` device to `WaitAccess`, changes nothing of a device in any other state, and issues
no command. -/
def Obligations.MeasureOnlyActsOnIdle : Prop :=
  ∀ (s : State) (d : Nat) (x : Device), s.clients.devices[d]? = some x →
    ∃ t, hostOp (.measure d) s = .next t ∧
      t = { s with clients := { s.clients with devices := t.clients.devices } } ∧
      t.clients.devices[d]? = some (if x.state = .idle then { x with state := .waitAccess } else x) ∧
      ∀ k, k ≠ d → t.clients.devices[k]? = s.clients.devices[k]?

/-- R242: a `Poll` of a device whose owner check fails does nothing, whatever its state, except that a device in
`Error` follows the restart policy (R245). -/
def Obligations.PollDefersToTheOwner : Prop :=
  ∀ (s : State) (d o : Nat) (x : Device), s.clients.devices[d]? = some x → s.clients.owner = some o → o ≠ d →
    (x.state ≠ .error ∨ s.params.errorPolicy = .externalRestart) → hostOp (.poll d) s = .next s

/-- R236: a `Poll` of a device in a state that issues a transfer does nothing while a completion flag is 0. -/
def Obligations.PollStaysWhileTransferInFlight : Prop :=
  ∀ (s : State) (d : Nat) (x : Device), s.clients.devices[d]? = some x → s.inited = true → isIdle s = false →
    (x.state = .reset ∨ x.state = .matchRom ∨ x.state = .sendAddress ∨ x.state = .startConversion ∨
      x.state = .reset2 ∨ x.state = .matchRom2 ∨ x.state = .sendAddress2 ∨ x.state = .read ∨
      x.state = .readLsb ∨ x.state = .readMsb) →
    hostOp (.poll d) s = .next s

/-- R240: `WaitConversion` stays one tick below the wait and goes to `Reset2` at or above it, when the device may use
the bus; the owner is set only under `HOST_RECLAIM` (R244). That it advances whatever the completion flags are, with no
stay guard before it, is the model's choice (DEDUCED, log entry 26). -/
def Obligations.ConversionWaitBoundary : Prop :=
  ∀ (s : State) (d : Nat) (x : Device), s.clients.devices[d]? = some x → x.state = .waitConversion →
    (s.clients.owner = none ∨ s.clients.owner = some d) → x.lastConv ≤ s.clients.now →
    (s.clients.now - x.lastConv < s.params.convTicks → hostOp (.poll d) s = .next s) ∧
    (s.params.convTicks ≤ s.clients.now - x.lastConv →
      ∃ t, hostOp (.poll d) s = .next t ∧ t.program = s.program ∧
        t.clients.owner = (if s.params.hostReclaim = true then some d else s.clients.owner) ∧
        t.clients.devices[d]? = some { x with state := .reset2 })

/-- R238, R243: after the block's `RESET` has returned (the rest of the `Poll`, log entry 26), the device's reset step
copies `R_PRESENCE`; on `P_OK` it goes to the state that addresses the device, and otherwise to `Error` with the bus
released. Before `INIT` its read of `R_PRESENCE` is refused (R219), and nothing but the mark changes (log entry 32). -/
def Obligations.FailedResetReleasesTheBus : Prop :=
  ∀ (s : State) (d : Nat) (x : Device), s.clients.devices[d]? = some x → (x.state = .reset ∨ x.state = .reset2) →
    (s.inited = true →
      ∃ t, hostOp (.pollResetDone d) s = .next t ∧
        (s.rPresence = .ok → t.clients.owner = s.clients.owner ∧
          t.clients.devices[d]? = some { x with
            presence := .ok, state := if x.state = .reset then .matchRom else .matchRom2 }) ∧
        (s.rPresence ≠ .ok → t.clients.owner = none ∧
          t.clients.devices[d]? = some { x with presence := s.rPresence, state := .error })) ∧
    (s.inited = false →
      hostOp (.pollResetDone d) s = .next { s with fault := some (s.fault.getD .notInitialised) })

/-- R111: `WAIT_IDLE` goes on exactly when both flags are 1, and otherwise looks again, with nothing else changed. -/
def Obligations.WaitIdleHoldsForBothFlags : Prop :=
  ∀ (s : State) (ops : List HostOp) (ts : List Turn),
    s.seq = .idle → s.inited = true → s.turns = .polling :: ts → s.program = .waitIdle :: ops →
    step s = .next { s with turns := ts, program := if isIdle s = true then ops else s.program }

/-- R249, R246, R270: once `SEARCH_NEXT` has returned (log entry 26), the host's `SearchNext` copies `R_ROM` into the
device's address when `R_OK` is 1, leaves it otherwise, and returns `R_OK`; `SetPrecision` with a resolution outside
9..12 returns false and sends nothing. After a `RESET` of its own (the rest of the call, log entry 26) `SetPrecision`
copies `R_PRESENCE` into the device's `presence` (R231) and goes on at `P_OK`; otherwise it drops its other operations
and returns false. Before `INIT` the reads of `R_OK` and `R_PRESENCE` are refused (R219): the mark is set, no device
changes, and the call returns no value (log entry 32). -/
def Obligations.AdministrativeCallsReturn : Prop :=
  ∀ (s : State) (d : Nat) (x : Device), s.clients.devices[d]? = some x →
    (s.inited = true →
      (∃ t, hostOp (.searchNextDone d) s = .next t ∧ t.clients.ret = some s.rOk ∧
        t.clients.devices[d]? = some (if s.rOk = true then { x with address := s.rRom } else x)) ∧
      (∀ rest, ∃ t, hostOp (.needPresence d rest) s = .next t ∧
        t.clients.devices[d]? = some { x with presence := s.rPresence } ∧
        (s.rPresence = .ok → t.program = s.program ∧ t.clients.ret = s.clients.ret) ∧
        (s.rPresence ≠ .ok → t.program = s.program.drop rest ∧ t.clients.ret = some false))) ∧
    (s.inited = false →
      hostOp (.searchNextDone d) s = .next { s with
        fault := some (s.fault.getD .notInitialised), clients := { s.clients with ret := none } } ∧
      (∀ rest, hostOp (.needPresence d rest) s = .next { s with
        fault := some (s.fault.getD .notInitialised)
        program := s.program.drop rest, clients := { s.clients with ret := none } })) ∧
    (∀ bits, bits < 9 ∨ 12 < bits →
      hostOp (.setPrecision d bits) s = .next { s with clients := { s.clients with ret := some false } })
end

