-- ==== Sys2Proof/Laws/Operands.lean ====
section
/-! SUPPORT. What the symbol code and the buffers give at each index, and the lengths of transfers (R61 to R63, R92,
R121, R122). -/

namespace Sys2Proof.Laws

open Sys2Proof.Machine

theorem encodeByte_length (p : Params) (v : Byte) : (encodeByte p v).length = 8 := by
  simp [encodeByte]

/-- Symbol `b` of an encoded byte carries bit `b` (R122). -/
theorem encodeByte_getElem? (p : Params) (v : Byte) (b : Nat) (hb : b < 8) :
    (encodeByte p v)[b]? = some (encodeBit p (v.getLsbD b)) := by
  simp [encodeByte, hb]

theorem encodeBytes_length (p : Params) (vs : List Byte) : (encodeBytes p vs).length = 8 * vs.length := by
  induction vs with
  | nil => rfl
  | cons v vs ih =>
    have h : (encodeBytes p (v :: vs)).length = (encodeByte p v).length + (encodeBytes p vs).length := by
      simp [encodeBytes]
    rw [h, ih, encodeByte_length, List.length_cons]; omega

/-- Symbol `8j + b` of an encoded buffer carries bit `b` of byte `j` (R63). -/
theorem encodeBytes_getElem? (p : Params) (vs : List Byte) (j b : Nat) (v : Byte) (hb : b < 8)
    (hj : vs[j]? = some v) : (encodeBytes p vs)[8 * j + b]? = some (encodeBit p (v.getLsbD b)) := by
  induction vs generalizing j with
  | nil => simp at hj
  | cons w ws ih =>
    have hcons : encodeBytes p (w :: ws) = encodeByte p w ++ encodeBytes p ws := by simp [encodeBytes]
    rw [hcons]
    cases j with
    | zero =>
      have hw : w = v := by simpa using hj
      rw [List.getElem?_append_left (by rw [encodeByte_length]; omega), hw]
      simpa using encodeByte_getElem? p v b hb
    | succ j =>
      rw [List.getElem?_append_right (by rw [encodeByte_length]; omega), encodeByte_length]
      have := ih j (by simpa using hj)
      rw [show 8 * (j + 1) + b - 8 = 8 * j + b by omega]
      exact this

/-- A filled transmit buffer holds the symbols from index 0 (R27). -/
theorem txBufOf_getElem? (syms : List Symbol) (draw j : Nat) (x : Symbol) (hj : j < 64)
    (hx : syms[j]? = some x) : (txBufOf syms draw)[j]? = some x := by
  simp [txBufOf, hj, hx]

/-- The transmitter reads back exactly the symbols a transfer was filled with (R74). -/
theorem txBufOf_take (syms : List Symbol) (draw : Nat) (h : syms.length ≤ 64) :
    (txBufOf syms draw).toList.take syms.length = syms := by
  apply List.ext_getElem
  · simp [h]
  · intro n h1 h2
    simp [txBufOf, h2]

theorem addrBytes_length (n : Nat) (s : State) (h : n ≤ 8) : (addrBytes n s).length = n := by
  simp [addrBytes, h]

theorem addrBytes_getElem? (n j : Nat) (s : State) (v : Byte) (hj : j < n)
    (hv : s.addrIn[j]? = some (some v)) : (addrBytes n s)[j]? = some v := by
  have h8 : j < 8 := by
    rcases Nat.lt_or_ge j 8 with h | h
    · exact h
    · simp [h] at hv
  simp [h8] at hv
  simp [addrBytes, hj, h8, hv]

/-- Exactly the bytes below the count decide whether the operand is written (R108). -/
theorem addrWritten_iff (n : Nat) (s : State) (h : n ≤ 8) :
    addrWritten n s = true ↔ ∀ j, j < n → ∃ v, s.addrIn[j]? = some (some v) := by
  simp only [addrWritten, List.all_eq_true]
  constructor
  · intro hall j hj
    have h8 : j < 8 := by omega
    have hm : s.addrIn[j] ∈ s.addrIn.toList.take n := by
      rw [List.mem_iff_getElem?]
      exact ⟨j, by simp [hj, h8]⟩
    obtain ⟨v, hv⟩ := Option.isSome_iff_exists.mp (hall _ hm)
    exact ⟨v, by simp [h8, hv]⟩
  · intro hall x hx
    obtain ⟨j, hj⟩ := List.mem_iff_getElem?.mp hx
    have hjn : j < n := by
      rcases Nat.lt_or_ge j n with h' | h'
      · exact h'
      · simp [Nat.not_lt.mpr h'] at hj
    obtain ⟨v, hv⟩ := hall j hjn
    have h8 : j < 8 := by omega
    simp [h8] at hv
    simp [hjn, h8, hv] at hj
    simp [← hj]

theorem freeSymbols_length (wire : List WireEvent) (n : Nat) : (freeSymbols wire n).length = n := by
  simp [freeSymbols]

/-- The oracle answers a receive of `n` with exactly `n` symbols (R72). -/
theorem busReadSymbols_length (p : Params) (bus : Bus) (wire : List WireEvent) (n : Nat) :
    (busReadSymbols p bus wire n).1.length = n := by
  unfold busReadSymbols
  split
  · simp [freeSymbols]
  · simp [freeSymbols]; omega
  · dsimp only
    split
    · rfl
    · simp [freeSymbols]

end Sys2Proof.Laws
end

