-- ==== Sys2Proof/Laws/Ops.lean ====
section
/-! SUPPORT. What the shared operations can do: raising, the checks, starting a command, issuing transfers
(R43, R127, R128, R272, R282). -/

namespace Sys2Proof.Laws

open Sys2Proof.Machine

/-- `raise` touches the mark alone and keeps the first reason (R43). -/
theorem raise_eq (r : Reason) (s : State) : raise r s = { s with fault := some (s.fault.getD r) } := by
  unfold raise
  cases s.fault <;> rfl

@[simp] theorem firstViolation_nil : firstViolation [] = none := rfl

@[simp] theorem firstViolation_cons_true (r : Reason) (cs : List Check) :
    firstViolation ((true, r) :: cs) = firstViolation cs := rfl

@[simp] theorem firstViolation_cons_false (r : Reason) (cs : List Check) :
    firstViolation ((false, r) :: cs) = some r := rfl

/-- No violation means that every check passed. -/
theorem firstViolation_eq_none (cs : List Check) : firstViolation cs = none ↔ ∀ c ∈ cs, c.1 = true := by
  induction cs with
  | nil => simp
  | cons c cs ih =>
    obtain ⟨b, r⟩ := c
    cases b <;> simp [ih]

theorem command_ok (cs : List Check) (f : State → State) (s : State) (hs : s.seq = .idle)
    (h : firstViolation cs = none) : command cs f s = .next (f s) := by
  simp [command, hs, h]

theorem command_violation (cs : List Check) (f : State → State) (s : State) (r : Reason) (hs : s.seq = .idle)
    (h : firstViolation cs = some r) : command cs f s = .next (raise r s) := by
  simp [command, hs, h]

theorem command_running (cs : List Check) (f : State → State) (s : State) (hs : s.seq ≠ .idle) :
    command cs f s = .fault .commandWhileRunning := by
  simp [command, hs]

/-- Everything a command's first step can answer as a next state: the mark with the first failed check, or its effect
with every check passed. -/
theorem command_next (cs : List Check) (f : State → State) (s t : State) (h : command cs f s = .next t) :
    s.seq = .idle ∧ ((∃ r, firstViolation cs = some r ∧ t = raise r s) ∨ (firstViolation cs = none ∧ t = f s)) := by
  unfold command at h
  split at h
  · rename_i hs
    refine ⟨hs, ?_⟩
    cases hv : firstViolation cs with
    | none => rw [hv] at h; cases h; exact .inr ⟨rfl, rfl⟩
    | some r => rw [hv] at h; cases h; exact .inl ⟨r, rfl, rfl⟩
  · cases h

/-- What filling and issuing a transmit writes (R127). -/
theorem sendSymbols_eq (syms : List Symbol) (s : State) :
    sendSymbols syms s = { s with
      txBuf := txBufOf syms s.draws, draws := s.draws + 1
      txLen := syms.length, txDone := false, txInflight := some syms.length } := rfl

/-- What `n` read slots write (R136). -/
theorem readSlots_eq (n : Nat) (s : State) :
    readSlots n s = { s with
      txBuf := txBufOf (List.replicate n s.params.symIdle) (s.draws + 1), draws := s.draws + 2
      txLen := n, txDone := false, txInflight := some n
      rxBuf := rxBufFree s.draws, rxLen := n, rxDone := false, rxInflight := some n } := by
  simp [readSlots, rxIssue, sendSymbols, txIssue]

/-- Everything a transfer inside the search can do: hold, or the body at data-rate timing, or end the search. -/
theorem searchIssue_cases (body : State → State) (next : Phase) (s : State) :
    (isIdle s = false ∧ searchIssue body next s = s) ∨
    (isIdle s = true ∧ s.timing = .dataRate ∧ searchIssue body next s = { body s with seq := next }) ∨
    (isIdle s = true ∧ s.timing ≠ .dataRate ∧
      searchIssue body next s = { raise .timingViolation s with seq := .idle }) := by
  unfold searchIssue
  cases hi : isIdle s
  · simp
  · by_cases ht : s.timing = .dataRate
    · simp [checkDataRate, ht]
    · have hb : (s.timing == Timing.dataRate) = false := by simpa using ht
      simp [checkDataRate, ht, hb]

/-- A transfer inside the search with both flags 1 at data-rate timing. -/
theorem searchIssue_ok (body : State → State) (next : Phase) (s : State) (hi : isIdle s = true)
    (ht : s.timing = .dataRate) : searchIssue body next s = { body s with seq := next } := by
  rcases searchIssue_cases body next s with ⟨h, _⟩ | ⟨_, _, h⟩ | ⟨_, h, _⟩
  · rw [hi] at h; cases h
  · exact h
  · exact absurd ht h

end Sys2Proof.Laws
end

