-- ==== Sys2Proof/Laws/Exec.lean ====
section
/-! SUPPORT. Each instruction's meaning as one equation, so that no proof unfolds `exec`. -/

namespace Sys2Proof.Laws

open Sys2Proof.Machine

theorem exec_init (s : State) :
    exec .init s = command [checkLinkIn s, (!s.inited || isIdle s, .initWhileBusy)] initEffect s := rfl

theorem exec_writeBit (b : Bool) (s : State) :
    exec (.writeBit b) s = command [checkInited s, checkIdle s, checkDataRate s]
      (fun s => sendSymbols [encodeBit s.params b] s) s := rfl

theorem exec_writeByte (s : State) :
    exec .writeByte s = command [checkInited s, checkDataIn s, checkIdle s, checkDataRate s]
      (fun s => sendSymbols (encodeByte s.params (s.dataIn.getD 0#8)) s) s := rfl

theorem exec_writeAddr (n : Nat) (s : State) :
    exec (.writeAddr n) s =
      command [checkCount n, checkInited s, checkAddrIn n s, checkIdle s, checkDataRate s]
        (fun s => sendSymbols (encodeBytes s.params (addrBytes n s)) s) s := rfl

theorem exec_readIssue (n : Nat) (s : State) :
    exec (.readIssue n) s = command [checkCount n, checkInited s, checkIdle s, checkDataRate s] (readSlots n) s := rfl

theorem exec_readBit (s : State) :
    exec .readBit s = command [checkInited s, checkIdle s, checkDataRate s]
      (fun s => { readSlots 1 s with seq := .rbWait }) s := rfl

theorem exec_reset (s : State) :
    exec .reset s = command [checkInited s, checkIdle s] (fun s => { startReset s with seq := .rsWait }) s := rfl

theorem exec_searchNext (s : State) :
    exec .searchNext s = command [checkInited s, checkIdle s] (fun s => { startReset s with seq := .sReset }) s := rfl

theorem exec_rxComplete (link : Link) (s : State) :
    exec (.rxComplete link) s = .next { s with rxDone := s.rxDone || linkMatches link s } := rfl

theorem exec_txComplete (link : Link) (s : State) :
    exec (.txComplete link) s = .next { s with txDone := s.txDone || linkMatches link s } := rfl

/-- The checks of a data transfer pass exactly when the command may run. -/
theorem dataChecks_pass (s : State) (hi : s.inited = true) (ht : s.txDone = true) (hr : s.rxDone = true)
    (hd : s.timing = .dataRate) :
    checkInited s = (true, .notInitialised) ∧ checkIdle s = (true, .transportBusy) ∧
      checkDataRate s = (true, .timingViolation) := by
  simp [checkInited, checkIdle, checkDataRate, isIdle, hi, ht, hr, hd]

end Sys2Proof.Laws
end

