-- ==== Sys2Proof/Laws/HostClients.lean ====
section
/-! SUPPORT. What a host operation can do to the block: nothing but present a command word, write operand registers,
or be refused a read (R36, R250). -/

namespace Sys2Proof.Laws

open Sys2Proof.Machine

/-- Everything but the operand registers, the host's own state and the mark is unchanged, and the mark keeps its first
reason. -/
structure HostFrame (s t : State) : Prop where
  frame : t = { s with
    linkIn := t.linkIn, dataIn := t.dataIn, addrIn := t.addrIn
    program := t.program, clients := t.clients, fault := t.fault }
  sticky : ∀ r, s.fault = some r → t.fault = some r

theorem HostFrame.refl (s : State) : HostFrame s s := ⟨rfl, fun _ h => h⟩

theorem HostFrame.trans {s t u : State} (h1 : HostFrame s t) (h2 : HostFrame t u) : HostFrame s u :=
  ⟨by rw [h2.frame, h1.frame], fun r h => h2.sticky r (h1.sticky r h)⟩

theorem hostFrame_raise (r : Reason) (s : State) : HostFrame s (raise r s) := by
  refine ⟨by simp [raise], ?_⟩
  intro q hq
  simp [raise, hq]

theorem hostFrame_pushOps (ops : List HostOp) (s : State) : HostFrame s (pushOps ops s) :=
  ⟨rfl, fun _ h => h⟩

theorem hostFrame_clients (c : Clients) (s : State) : HostFrame s { s with clients := c } :=
  ⟨rfl, fun _ h => h⟩

theorem hostFrame_updateDevice (d : Nat) (f : Device → Device) (s : State) : HostFrame s (updateDevice d f s) :=
  hostFrame_clients _ s

theorem hostFrame_setDevState (d : Nat) (st : DevState) (s : State) : HostFrame s (setDevState d st s) :=
  hostFrame_clients _ s

theorem hostFrame_setOwner (o : Option Nat) (s : State) : HostFrame s (setOwner o s) :=
  hostFrame_clients _ s

/-- What a read can do: its value is gone on with, or the mark is set. -/
theorem hostFrame_readThen (v : View) (act : ViewValue → State → State) (refused : State → State) (s : State)
    (ha : ∀ x, HostFrame s (act x s)) (hr : ∀ t, HostFrame t (refused t)) : HostFrame s (readThen v act refused s) := by
  unfold readThen
  split
  · exact ha _
  · exact (hostFrame_raise _ s).trans (hr _)

theorem hostFrame_withBit (v : View) (act : Bool → State → State) (refused : State → State) (s : State)
    (ha : ∀ b, HostFrame s (act b s)) (hr : ∀ t, HostFrame t (refused t)) : HostFrame s (withBit v act refused s) :=
  hostFrame_readThen _ _ _ s (fun x => by split <;> first | exact ha _ | exact .refl s) hr

theorem hostFrame_withRxByte (act : Byte → State → State) (s : State) (ha : ∀ v, HostFrame s (act v s)) :
    HostFrame s (withRxByte act s) :=
  hostFrame_readThen _ _ _ s (fun x => by split <;> first | exact ha _ | exact .refl s) .refl

theorem hostFrame_withRom (act : Rom → State → State) (s : State) (ha : ∀ r, HostFrame s (act r s)) :
    HostFrame s (withRom act s) :=
  hostFrame_readThen _ _ _ s (fun x => by split <;> first | exact ha _ | exact .refl s) .refl

theorem hostFrame_withPresence (act : Presence → State → State) (refused : State → State) (s : State)
    (ha : ∀ p, HostFrame s (act p s)) (hr : ∀ t, HostFrame t (refused t)) :
    HostFrame s (withPresence act refused s) :=
  hostFrame_readThen _ _ _ s (fun x => by split <;> first | exact ha _ | exact .refl s) hr

theorem hostFrame_withFlags (both notBoth : State → State) (s : State) (h1 : HostFrame s (both s))
    (h2 : HostFrame s (notBoth s)) : HostFrame s (withFlags both notBoth s) :=
  hostFrame_readThen _ _ _ s (fun x => by split <;> assumption) .refl

theorem hostFrame_hostRead (v : View) (s : State) : HostFrame s (hostRead v s) :=
  hostFrame_readThen _ _ _ s (fun _ => hostFrame_clients _ s) .refl

theorem hostFrame_waitIdleOp (s : State) : HostFrame s (waitIdleOp s) :=
  hostFrame_withFlags _ _ s (.refl s) (hostFrame_pushOps _ s)

theorem hostFrame_stayGuard (act : State → State) (s : State) (h : HostFrame s (act s)) :
    HostFrame s (stayGuard act s) :=
  hostFrame_withFlags _ _ s h (.refl s)

theorem hostFrame_returns (r : Option Bool) (s : State) : HostFrame s (returns r s) := hostFrame_clients _ s

theorem hostFrame_abandon (rest : Nat) (r : Option Bool) (s : State) : HostFrame s (abandon rest r s) :=
  ⟨rfl, fun _ h => h⟩

/-- Before `INIT` every read is refused (R219). -/
theorem readThen_uninit (v : View) (act : ViewValue → State → State) (refused : State → State) (s : State)
    (h : s.inited = false) : readThen v act refused s = refused (raise .notInitialised s) := by
  simp [readThen, readView, h]

theorem withBit_rOk (act : Bool → State → State) (refused : State → State) (s : State) (h : s.inited = true) :
    withBit .rOk act refused s = act s.rOk s := by
  simp [withBit, readThen, readView, h]

theorem withBit_rBit (act : Bool → State → State) (refused : State → State) (s : State) (h : s.inited = true) :
    withBit .rBit act refused s = act s.rBit s := by
  simp [withBit, readThen, readView, h]

theorem withRom_eq (act : Rom → State → State) (s : State) (h : s.inited = true) :
    withRom act s = act s.rRom s := by
  simp [withRom, readThen, readView, h]

/-- The host reads back the outcome the block wrote (R94). -/
theorem presenceOf_presenceCode (p : Presence) : presenceOf (presenceCode p) = p := by
  cases p <;> rfl

theorem withPresence_eq (act : Presence → State → State) (refused : State → State) (s : State)
    (h : s.inited = true) : withPresence act refused s = act s.rPresence s := by
  simp [withPresence, readThen, readView, h, presenceOf_presenceCode]

theorem withFlags_eq (both notBoth : State → State) (s : State) (h : s.inited = true) :
    withFlags both notBoth s = if isIdle s = true then both s else notBoth s := by
  cases h1 : s.txDone <;> cases h2 : s.rxDone <;> simp [withFlags, readThen, readView, h, flagsOf, isIdle, h1, h2]

theorem hostFrame_pollAction (d : Nat) (x : Device) (s : State) : HostFrame s (pollAction d x s) := by
  unfold pollAction
  split
  · exact .refl s
  · exact .refl s
  · exact (hostFrame_setOwner _ s).trans (hostFrame_setDevState _ _ _)
  · exact hostFrame_stayGuard _ s (hostFrame_pushOps _ s)
  · exact hostFrame_stayGuard _ s ((hostFrame_setDevState _ _ s).trans (hostFrame_pushOps _ _))
  · exact hostFrame_stayGuard _ s ((hostFrame_setDevState _ _ s).trans (hostFrame_pushOps _ _))
  · exact hostFrame_stayGuard _ s (hostFrame_pushOps _ s)
  · unfold pollWaitConversion
    split
    · split
      · exact (hostFrame_setOwner _ s).trans (hostFrame_setDevState _ _ _)
      · exact hostFrame_setDevState _ _ s
    · exact .refl s
  · exact hostFrame_stayGuard _ s (hostFrame_pushOps _ s)
  · exact hostFrame_stayGuard _ s ((hostFrame_setDevState _ _ s).trans (hostFrame_pushOps _ _))
  · exact hostFrame_stayGuard _ s ((hostFrame_setDevState _ _ s).trans (hostFrame_pushOps _ _))
  · exact hostFrame_stayGuard _ s ((hostFrame_setDevState _ _ s).trans (hostFrame_pushOps _ _))
  · exact hostFrame_stayGuard _ s ((hostFrame_setDevState _ _ s).trans (hostFrame_pushOps _ _))
  · exact hostFrame_stayGuard _ s
      (hostFrame_withRxByte _ s fun v => (hostFrame_updateDevice _ _ s).trans (hostFrame_pushOps _ _))
  · exact hostFrame_stayGuard _ s
      (hostFrame_withRxByte _ s fun v => (hostFrame_updateDevice _ _ s).trans (hostFrame_setOwner _ _))

theorem hostFrame_pollDevice (d : Nat) (s : State) : HostFrame s (pollDevice d s) := by
  unfold pollDevice
  split
  · exact .refl s
  · split
    · exact .refl s
    · split
      · unfold pollError
        split
        · exact .refl s
        · split
          · exact hostFrame_setDevState _ _ s
          · exact .refl s
      · split
        · exact hostFrame_pollAction _ _ s
        · exact .refl s

theorem hostFrame_pollResetDoneOp (d : Nat) (s : State) : HostFrame s (pollResetDoneOp d s) := by
  refine hostFrame_withPresence _ _ s (fun p => ?_) .refl
  dsimp only
  split
  · exact hostFrame_updateDevice _ _ s
  · exact (hostFrame_updateDevice _ _ s).trans (hostFrame_setOwner _ _)

theorem hostFrame_pollConvertDoneOp (d : Nat) (s : State) : HostFrame s (pollConvertDoneOp d s) :=
  (hostFrame_updateDevice _ _ s).trans (hostFrame_setOwner _ _)

theorem hostFrame_newDeviceOp (s : State) : HostFrame s (newDeviceOp s) := hostFrame_clients _ s

theorem hostFrame_copyPresence (d : Nat) (p : Presence) (s : State) : HostFrame s (copyPresence d p s) :=
  hostFrame_updateDevice _ _ s

theorem hostFrame_needPresenceOp (d rest : Nat) (s : State) : HostFrame s (needPresenceOp d rest s) := by
  refine hostFrame_withPresence _ _ s (fun p => ?_) (hostFrame_abandon _ _)
  split
  · exact hostFrame_copyPresence d p s
  · exact (hostFrame_copyPresence d p s).trans (hostFrame_abandon _ _ _)

theorem hostFrame_copyLoopOp (s : State) : HostFrame s (copyLoopOp s) := by
  refine hostFrame_withBit _ _ _ s (fun b => ?_) (hostFrame_returns _)
  split
  · exact hostFrame_returns _ s
  · exact hostFrame_pushOps _ s

theorem hostFrame_searchNextDoneOp (d : Nat) (s : State) : HostFrame s (searchNextDoneOp d s) := by
  refine hostFrame_withBit _ _ _ s (fun ok => ?_) (hostFrame_returns _)
  split
  · exact (hostFrame_withRom _ s fun r => hostFrame_updateDevice _ _ s).trans (hostFrame_returns _ _)
  · exact hostFrame_returns _ s

theorem hostFrame_searchLoopOp (s : State) : HostFrame s (searchLoopOp s) := by
  refine hostFrame_withBit _ _ _ s (fun ok => ?_) .refl
  split
  · exact hostFrame_withRom _ s fun r => (hostFrame_clients _ s).trans (hostFrame_pushOps _ _)
  · exact .refl s

theorem hostFrame_setPrecisionOp (d bits : Nat) (s : State) : HostFrame s (setPrecisionOp d bits s) := by
  unfold setPrecisionOp
  split
  · exact .refl s
  · split
    · exact hostFrame_pushOps _ s
    · exact hostFrame_clients _ s

/-- Everything a host operation can do: present its command word, or keep to the host's frame. -/
theorem hostOp_cases (op : HostOp) (s : State) :
    (∃ w, op = .command w ∧ hostOp op s = presentCommand w s) ∨ ∃ t, hostOp op s = .next t ∧ HostFrame s t := by
  cases op with
  | command w => exact .inl ⟨w, rfl, rfl⟩
  | setLinkIn v => exact .inr ⟨_, rfl, rfl, fun _ h => h⟩
  | setLinkInBound => exact .inr ⟨_, rfl, rfl, fun _ h => h⟩
  | setDataIn v => exact .inr ⟨_, rfl, rfl, fun _ h => h⟩
  | setAddrIn j v => exact .inr ⟨_, rfl, rfl, fun _ h => h⟩
  | read v => exact .inr ⟨_, rfl, hostFrame_hostRead v s⟩
  | waitIdle => exact .inr ⟨_, rfl, hostFrame_waitIdleOp s⟩
  | searchLoop => exact .inr ⟨_, rfl, hostFrame_searchLoopOp s⟩
  | measure d => exact .inr ⟨_, rfl, hostFrame_updateDevice _ _ s⟩
  | poll d => exact .inr ⟨_, rfl, hostFrame_pollDevice d s⟩
  | pollResetDone d => exact .inr ⟨_, rfl, hostFrame_pollResetDoneOp d s⟩
  | pollConvertDone d => exact .inr ⟨_, rfl, hostFrame_pollConvertDoneOp d s⟩
  | newDevice => exact .inr ⟨_, rfl, hostFrame_newDeviceOp s⟩
  | restart d => exact .inr ⟨_, rfl, hostFrame_updateDevice _ _ s⟩
  | searchNext d => exact .inr ⟨_, rfl, hostFrame_pushOps _ s⟩
  | searchNextDone d => exact .inr ⟨_, rfl, hostFrame_searchNextDoneOp d s⟩
  | setPrecision d bits => exact .inr ⟨_, rfl, hostFrame_setPrecisionOp d bits s⟩
  | needPresence d rest => exact .inr ⟨_, rfl, hostFrame_needPresenceOp d rest s⟩
  | copyLoop => exact .inr ⟨_, rfl, hostFrame_copyLoopOp s⟩

end Sys2Proof.Laws
end

