-- ==== Sys2Proof/Laws/PerInstr.lean ====
section
/-! SUPPORT. One statement per instruction: its encoded word lies on its port and under the mask and match of its row
of spec/opcode_table.json (R95, R96, R104). -/

namespace Sys2Proof.Laws.Encoded

/-- A word on the command port with these bits under the mask. -/
def onCommandPort (p : PortWord) (mask pattern : Byte) : Prop := ∃ w : Byte, p = .cmd w ∧ w &&& mask = pattern

/-- A word on the event port with this selector bit. -/
def onEventPort (p : PortWord) (sel : Bool) : Prop := ∃ w : EvtWord, p = .evt w ∧ w.getLsbD 0 = sel

/-- Where an instruction's word lies. -/
def Statement (i : Instr) : Prop :=
  i.wf = true →
    match i with
    | .init => onCommandPort (encode i) 0xFF#8 0x10#8
    | .writeBit _ => onCommandPort (encode i) 0xFE#8 0x20#8
    | .writeByte => onCommandPort (encode i) 0xFF#8 0x30#8
    | .writeAddr _ => onCommandPort (encode i) 0xF0#8 0x40#8
    | .readIssue _ => onCommandPort (encode i) 0xF0#8 0x50#8
    | .readBit => onCommandPort (encode i) 0xFF#8 0x60#8
    | .reset => onCommandPort (encode i) 0xFF#8 0x70#8
    | .searchNext => onCommandPort (encode i) 0xFF#8 0x80#8
    | .rxComplete _ => onEventPort (encode i) false
    | .txComplete _ => onEventPort (encode i) true

theorem init : Statement .init := fun _ => ⟨_, rfl, by decide⟩

theorem writeBit (b : Bool) : Statement (.writeBit b) := by
  intro _
  cases b <;> exact ⟨_, rfl, by decide⟩

theorem writeByte : Statement .writeByte := fun _ => ⟨_, rfl, by decide⟩

theorem writeAddr (n : Nat) : Statement (.writeAddr n) := by
  intro _
  refine ⟨_, rfl, ?_⟩
  generalize BitVec.ofNat 4 n = v
  revert v
  decide

theorem readIssue (n : Nat) : Statement (.readIssue n) := by
  intro _
  refine ⟨_, rfl, ?_⟩
  generalize BitVec.ofNat 4 n = v
  revert v
  decide

theorem readBit : Statement .readBit := fun _ => ⟨_, rfl, by decide⟩

theorem reset : Statement .reset := fun _ => ⟨_, rfl, by decide⟩

theorem searchNext : Statement .searchNext := fun _ => ⟨_, rfl, by decide⟩

theorem evtWord_bit0 : ∀ (link : Link) (sel : BitVec 1), (evtWord link sel).getLsbD 0 = sel.getLsbD 0 := by
  intro link sel
  rw [evtWord, BitVec.getLsbD_append, if_pos (by decide)]

theorem rxComplete (link : Link) : Statement (.rxComplete link) := by
  intro _
  exact ⟨_, rfl, evtWord_bit0 link _⟩

theorem txComplete (link : Link) : Statement (.txComplete link) := by
  intro _
  exact ⟨_, rfl, evtWord_bit0 link _⟩

end Sys2Proof.Laws.Encoded
end

