-- ==== Sys2Proof/Laws/Present.lean ====
section
/-! SUPPORT. What a command can do in its first step, said once: the mark, the effect of `INIT`, a transmit, read
slots, or the start of a reset exchange, each with what the checks guarantee (R125, R126, R130 to R136, R151, R166,
R170, R181, R211). -/

namespace Sys2Proof.Laws

open Sys2Proof.Machine

/-- The next states of a command's first step. -/
inductive FirstStep (s : State) : Instr → State → Prop
  | marked (i : Instr) (r : Reason) : FirstStep s i (raise r s)
  | init (link : Link) (hl : s.linkIn = some link) (hi : s.inited = false ∨ isIdle s = true) :
      FirstStep s .init (initEffect s)
  | send (i : Instr) (syms : List Symbol) (h1 : 1 ≤ syms.length) (h64 : syms.length ≤ 64) (hi : s.inited = true)
      (hf : isIdle s = true) (ht : s.timing = .dataRate) : FirstStep s i (sendSymbols syms s)
  | slots (i : Instr) (n : Nat) (h1 : 1 ≤ n) (h8 : n ≤ 8) (hi : s.inited = true) (hf : isIdle s = true)
      (ht : s.timing = .dataRate) : FirstStep s i (readSlots n s)
  | readBit (hi : s.inited = true) (hf : isIdle s = true) (ht : s.timing = .dataRate) :
      FirstStep s .readBit { readSlots 1 s with seq := .rbWait }
  | reset (hi : s.inited = true) (hf : isIdle s = true) :
      FirstStep s .reset { startReset s with seq := .rsWait }
  | search (hi : s.inited = true) (hf : isIdle s = true) :
      FirstStep s .searchNext { startReset s with seq := .sReset }

theorem checks_inited (s : State) (cs : List Check) (h : firstViolation cs = none) (hm : checkInited s ∈ cs) :
    s.inited = true := (firstViolation_eq_none cs).1 h _ hm

theorem checks_idle (s : State) (cs : List Check) (h : firstViolation cs = none) (hm : checkIdle s ∈ cs) :
    isIdle s = true := (firstViolation_eq_none cs).1 h _ hm

theorem checks_dataRate (s : State) (cs : List Check) (h : firstViolation cs = none) (hm : checkDataRate s ∈ cs) :
    s.timing = .dataRate := by
  have := (firstViolation_eq_none cs).1 h _ hm
  simpa [checkDataRate] using this

theorem checks_count (n : Nat) (cs : List Check) (h : firstViolation cs = none) (hm : checkCount n ∈ cs) :
    1 ≤ n ∧ n ≤ 8 := by
  have := (firstViolation_eq_none cs).1 h _ hm
  simpa [checkCount, legalCount] using this

/-- Every next state of a command's first step is one of these, and the sequencer was at `IDLE` (R95). -/
theorem exec_command_cases (i : Instr) (s t : State) (hc : i.isCommand = true) (h : exec i s = .next t) :
    s.seq = .idle ∧ FirstStep s i t := by
  cases i with
  | init =>
    rw [exec_init] at h
    obtain ⟨hs, ⟨r, _, rfl⟩ | ⟨hv, rfl⟩⟩ := command_next _ _ _ _ h
    · exact ⟨hs, .marked _ r⟩
    · have h1 := (firstViolation_eq_none _).1 hv (checkLinkIn s) (by simp)
      have h2 := (firstViolation_eq_none _).1 hv (!s.inited || isIdle s, .initWhileBusy) (by simp)
      obtain ⟨l, hl⟩ := Option.isSome_iff_exists.mp h1
      exact ⟨hs, .init l hl (by simpa using h2)⟩
  | writeBit b =>
    rw [exec_writeBit] at h
    obtain ⟨hs, ⟨r, _, rfl⟩ | ⟨hv, rfl⟩⟩ := command_next _ _ _ _ h
    · exact ⟨hs, .marked _ r⟩
    · exact ⟨hs, .send _ _ (by simp) (by simp) (checks_inited s _ hv (by simp)) (checks_idle s _ hv (by simp))
        (checks_dataRate s _ hv (by simp))⟩
  | writeByte =>
    rw [exec_writeByte] at h
    obtain ⟨hs, ⟨r, _, rfl⟩ | ⟨hv, rfl⟩⟩ := command_next _ _ _ _ h
    · exact ⟨hs, .marked _ r⟩
    · exact ⟨hs, .send _ _ (by rw [encodeByte_length]; omega) (by rw [encodeByte_length]; omega)
        (checks_inited s _ hv (by simp)) (checks_idle s _ hv (by simp)) (checks_dataRate s _ hv (by simp))⟩
  | writeAddr n =>
    rw [exec_writeAddr] at h
    obtain ⟨hs, ⟨r, _, rfl⟩ | ⟨hv, rfl⟩⟩ := command_next _ _ _ _ h
    · exact ⟨hs, .marked _ r⟩
    · obtain ⟨h1, h8⟩ := checks_count n _ hv (by simp)
      exact ⟨hs, .send _ _ (by rw [encodeBytes_length, addrBytes_length n s h8]; omega)
        (by rw [encodeBytes_length, addrBytes_length n s h8]; omega)
        (checks_inited s _ hv (by simp)) (checks_idle s _ hv (by simp)) (checks_dataRate s _ hv (by simp))⟩
  | readIssue n =>
    rw [exec_readIssue] at h
    obtain ⟨hs, ⟨r, _, rfl⟩ | ⟨hv, rfl⟩⟩ := command_next _ _ _ _ h
    · exact ⟨hs, .marked _ r⟩
    · obtain ⟨h1, h8⟩ := checks_count n _ hv (by simp)
      exact ⟨hs, .slots _ n h1 h8
        (checks_inited s _ hv (by simp)) (checks_idle s _ hv (by simp)) (checks_dataRate s _ hv (by simp))⟩
  | readBit =>
    rw [exec_readBit] at h
    obtain ⟨hs, ⟨r, _, rfl⟩ | ⟨hv, rfl⟩⟩ := command_next _ _ _ _ h
    · exact ⟨hs, .marked _ r⟩
    · exact ⟨hs, .readBit
        (checks_inited s _ hv (by simp)) (checks_idle s _ hv (by simp)) (checks_dataRate s _ hv (by simp))⟩
  | reset =>
    rw [exec_reset] at h
    obtain ⟨hs, ⟨r, _, rfl⟩ | ⟨hv, rfl⟩⟩ := command_next _ _ _ _ h
    · exact ⟨hs, .marked _ r⟩
    · exact ⟨hs, .reset (checks_inited s _ hv (by simp)) (checks_idle s _ hv (by simp))⟩
  | searchNext =>
    rw [exec_searchNext] at h
    obtain ⟨hs, ⟨r, _, rfl⟩ | ⟨hv, rfl⟩⟩ := command_next _ _ _ _ h
    · exact ⟨hs, .marked _ r⟩
    · exact ⟨hs, .search (checks_inited s _ hv (by simp)) (checks_idle s _ hv (by simp))⟩
  | rxComplete l => cases hc
  | txComplete l => cases hc

/-- Every word that decodes on the command port is a command, and only three words start with something that sets
`timing` (R96, R124). -/
theorem decodeCommand_facts : ∀ w : Byte, ∀ i ∈ (decodeCommand w).toOption,
    i.isCommand = true ∧ (i = .init → w = 0x10#8) ∧ (i = .reset → w = 0x70#8) ∧ (i = .searchNext → w = 0x80#8) := by
  decide +kernel

/-- A presented word: refused with the mark, or the first step of the command it decodes to. -/
theorem presentCommand_cases (w : Byte) (s t : State) (h : presentCommand w s = .next t) :
    s.seq = .idle ∧ ((t = raise .illegalCommand s) ∨
      ∃ i, decodeCommand w = .ok i ∧ i.isCommand = true ∧ FirstStep s i t) := by
  unfold presentCommand at h
  cases hd : decodeCommand w with
  | ok i =>
    rw [hd] at h
    have hi := (decodeCommand_facts w i (by simp [hd, Except.toOption])).1
    obtain ⟨hs, hf⟩ := exec_command_cases i s t hi h
    exact ⟨hs, .inr ⟨i, rfl, hi, hf⟩⟩
  | error e =>
    rw [hd] at h
    dsimp only at h
    split at h
    · cases h; exact ⟨by assumption, .inl rfl⟩
    · cases h

end Sys2Proof.Laws
end

