-- ==== Sys2Proof/Laws/Step.lean ====
section
/-! SUPPORT. What a step can do, said once: by the turn it takes (R10, R45). -/

namespace Sys2Proof.Laws

open Sys2Proof.Machine

/-- The turn is taken off the schedule, or a free value is drawn for it; nothing else changes. -/
theorem afterTurn_frame (s : State) :
    afterTurn s = { s with turns := (afterTurn s).turns, draws := (afterTurn s).draws } := by
  unfold afterTurn
  split <;> rfl

theorem step_of_turn (s : State) (t : Turn) (ts : List Turn) (h : s.turns = t :: ts) :
    step s = agentStep t { s with turns := ts } := by
  simp [step, machineStep, nextTurn, afterTurn, h]

/-- Everything a step can do, by whose turn it is; `u` is the state with the turn taken. -/
theorem step_cases (s t : State) (h : step s = .next t) :
    ∃ u, u = { s with turns := u.turns, draws := u.draws } ∧
      ((u.seq = .idle ∧ hostStep u = .next t) ∨
       (u.seq ≠ .idle ∧ t = phaseStep u) ∨
       t = linkTxStep u ∨ t = linkRxStep u ∨ deliverTx u = .next t ∨ deliverRx u = .next t ∨
       (∃ w, deliverEvent w u = .next t) ∨ t = tickStep u) := by
  refine ⟨afterTurn s, afterTurn_frame s, ?_⟩
  unfold step machineStep at h
  cases hn : nextTurn s <;> rw [hn] at h <;> simp only [agentStep] at h
  case polling =>
    unfold pollingStep at h
    split at h
    · exact .inl ⟨by assumption, h⟩
    · cases h; exact .inr (.inl ⟨by assumption, rfl⟩)
  case linkTx => cases h; exact .inr (.inr (.inl rfl))
  case linkRx => cases h; exact .inr (.inr (.inr (.inl rfl)))
  case txEvent => exact .inr (.inr (.inr (.inr (.inl h))))
  case rxEvent => exact .inr (.inr (.inr (.inr (.inr (.inl h)))))
  case event w => exact .inr (.inr (.inr (.inr (.inr (.inr (.inl ⟨w, h⟩))))))
  case tick => cases h; exact .inr (.inr (.inr (.inr (.inr (.inr (.inr rfl))))))

/-- Everything the host's step can do at `IDLE`: present a command word, be refused one, or keep to its frame. -/
theorem hostStep_cases (s t : State) (h : hostStep s = .next t) :
    (∃ w ops, s.program = .command w :: ops ∧ presentCommand w { s with program := ops } = .next t) ∨
    HostFrame s t := by
  unfold hostStep at h
  split at h
  · cases h; exact .inr (.refl s)
  · rename_i op rest hp
    rcases hostOp_cases op { s with program := rest } with ⟨w, rfl, hw⟩ | ⟨u, hu, hf⟩
    · rw [hw] at h
      exact .inl ⟨w, rest, hp, h⟩
    · rw [hu] at h
      cases h
      have h0 : HostFrame s { s with program := rest } := ⟨rfl, fun _ h => h⟩
      exact .inr (h0.trans hf)

/-- A delivered event changes its own flag and pending field, and only sets the flag. -/
theorem deliverTx_eq (s : State) :
    deliverTx s = .next (match s.txPending with
      | none => s
      | some link => { s with txPending := none, txDone := s.txDone || linkMatches link s }) := by
  unfold deliverTx
  cases s.txPending <;> rfl

theorem deliverRx_eq (s : State) :
    deliverRx s = .next (match s.rxPending with
      | none => s
      | some link => { s with rxPending := none, rxDone := s.rxDone || linkMatches link s }) := by
  unfold deliverRx
  cases s.rxPending <;> rfl

/-- An event word on the port, when the contract allows it, sets at most its own flag. -/
theorem deliverEvent_eq (w : EvtWord) (s : State) :
    deliverEvent w s = .next (
      if eventAllowed w s = true then
        if w.getLsbD 0 = true then { s with txDone := s.txDone || linkMatches (evtLink w) s }
        else { s with rxDone := s.rxDone || linkMatches (evtLink w) s }
      else s) := by
  unfold deliverEvent decodeEvent
  by_cases ha : eventAllowed w s = true
  · by_cases hb : w.getLsbD 0 = true
    · simp only [ha, hb, if_true]; rfl
    · simp only [ha, hb, if_true]; rfl
  · simp only [ha]; rfl

end Sys2Proof.Laws
end

