-- ==== Sys2Proof/Laws/Run.lean ====
section
/-! SUPPORT. The link agents' moves when they have work (R138, R139), the sequencer's frame (R40), and runs of several
steps. -/

namespace Sys2Proof.Laws

open Sys2Proof.Machine

theorem linkTxStep_some (s : State) (k : Nat) (h : s.txInflight = some k) :
    linkTxStep s = { s with
      wire := s.wire ++ [.wTx s.timing (s.txBuf.toList.take k)], txInflight := none, txPending := s.boundLink } := by
  simp only [linkTxStep, h]

theorem linkRxStep_some (s : State) (n : Nat) (syms : List Symbol) (bus : Bus) (h : s.rxInflight = some n)
    (hb : busReadSymbols s.params s.bus s.wire n = (syms, bus)) :
    linkRxStep s = { s with
      rxBuf := landSymbols syms s.rxBuf, wire := s.wire ++ [.wRx s.timing syms], bus := bus
      rxInflight := none, rxPending := s.boundLink } := by
  simp only [linkRxStep, h, hb]

/-- A scripted bus answers a read slot with its next symbol. -/
theorem busReadSymbols_scripted_one (p : Params) (es : List (Option Symbol)) (x : Symbol) (xs : List Symbol)
    (wire : List WireEvent) : busReadSymbols p (.scripted es (x :: xs)) wire 1 = ([x], .scripted es xs) := by
  have h : (freeSymbols wire 1).drop (x :: xs).length = [] := by simp [freeSymbols]
  simp only [busReadSymbols, h]
  rfl

theorem deliverTx_some (s : State) (link : Link) (h : s.txPending = some link) (hm : linkMatches link s = true) :
    deliverTx s = .next { s with txPending := none, txDone := true } := by
  rw [deliverTx_eq, h]
  simp only [hm, Bool.or_true]

theorem deliverRx_some (s : State) (link : Link) (h : s.rxPending = some link) (hm : linkMatches link s = true) :
    deliverRx s = .next { s with rxPending := none, rxDone := true } := by
  rw [deliverRx_eq, h]
  simp only [hm, Bool.or_true]

/-- A written bit is the bit decoded, given distinct symbols (R8, R65). -/
theorem decodeSym_encodeBit (p : Params) (hp : paramsOk p = true) (b : Bool) : decodeSym p (encodeBit p b) = b := by
  have h : p.symZero ≠ p.symIdle := by
    simp only [paramsOk, Bool.and_eq_true] at hp
    simpa using hp.1
  cases b <;> simp [decodeSym, encodeBit, h]

/-- What the sequencer never writes: the binding, the operand registers, the host, the pending events, the schedule. -/
theorem phaseStep_frame (s : State) :
    (phaseStep s).inited = s.inited ∧ (phaseStep s).boundLink = s.boundLink ∧ (phaseStep s).linkIn = s.linkIn ∧
      (phaseStep s).dataIn = s.dataIn ∧ (phaseStep s).addrIn = s.addrIn ∧ (phaseStep s).program = s.program ∧
      (phaseStep s).clients = s.clients ∧ (phaseStep s).params = s.params ∧ (phaseStep s).turns = s.turns ∧
      (phaseStep s).txPending = s.txPending ∧ (phaseStep s).rxPending = s.rxPending := by
  unfold phaseStep
  split
  · exact ⟨rfl, rfl, rfl, rfl, rfl, rfl, rfl, rfl, rfl, rfl, rfl⟩
  · unfold readBitPhase
    split <;> exact ⟨rfl, rfl, rfl, rfl, rfl, rfl, rfl, rfl, rfl, rfl, rfl⟩
  · exact ⟨rfl, rfl, rfl, rfl, rfl, rfl, rfl, rfl, rfl, rfl, rfl⟩
  · unfold sResetPhase
    dsimp only
    split
    · split <;> exact ⟨rfl, rfl, rfl, rfl, rfl, rfl, rfl, rfl, rfl, rfl, rfl⟩
    · exact ⟨rfl, rfl, rfl, rfl, rfl, rfl, rfl, rfl, rfl, rfl, rfl⟩
  · unfold sCmdPhase
    rcases searchIssue_cases
      (fun s => { sendSymbols (encodeByte s.params s.params.cmdSearchRom) s with i := 1, lastZero := 0 })
      .sIdIssue s with ⟨_, h⟩ | ⟨_, _, h⟩ | ⟨_, _, h⟩ <;> rw [h] <;>
        exact ⟨rfl, rfl, rfl, rfl, rfl, rfl, rfl, rfl, rfl, rfl, rfl⟩
  · unfold sIdIssuePhase
    rcases searchIssue_cases (readSlots 1) .sIdRx s with ⟨_, h⟩ | ⟨_, _, h⟩ | ⟨_, _, h⟩ <;> rw [h] <;>
      exact ⟨rfl, rfl, rfl, rfl, rfl, rfl, rfl, rfl, rfl, rfl, rfl⟩
  · unfold sIdRxPhase
    split <;> exact ⟨rfl, rfl, rfl, rfl, rfl, rfl, rfl, rfl, rfl, rfl, rfl⟩
  · unfold sCmpIssuePhase
    rcases searchIssue_cases (readSlots 1) .sCmpRx s with ⟨_, h⟩ | ⟨_, _, h⟩ | ⟨_, _, h⟩ <;> rw [h] <;>
      exact ⟨rfl, rfl, rfl, rfl, rfl, rfl, rfl, rfl, rfl, rfl, rfl⟩
  · unfold sCmpRxPhase
    split <;> exact ⟨rfl, rfl, rfl, rfl, rfl, rfl, rfl, rfl, rfl, rfl, rfl⟩
  · unfold sDecidePhase
    split <;> exact ⟨rfl, rfl, rfl, rfl, rfl, rfl, rfl, rfl, rfl, rfl, rfl⟩
  · unfold sDirPhase
    rcases searchIssue_cases
      (fun s => { sendSymbols [encodeBit s.params s.dir] s with i := if s.i < 64 then s.i + 1 else s.i })
      (if s.i < 64 then .sIdIssue else .sFinish) s with ⟨_, h⟩ | ⟨_, _, h⟩ | ⟨_, _, h⟩ <;> rw [h] <;>
        exact ⟨rfl, rfl, rfl, rfl, rfl, rfl, rfl, rfl, rfl, rfl, rfl⟩
  · exact ⟨rfl, rfl, rfl, rfl, rfl, rfl, rfl, rfl, rfl, rfl, rfl⟩

/-- The first step of a run. -/
theorem run_succ {s t : State} (n : Nat) (h : step s = .next t) :
    Sys2Proof.core.run (n + 1) s = Sys2Proof.core.run n t := by
  have hc : Sys2Proof.core.step s = .next t := h
  simp only [Host.Core.run, hc]

/-- Runs compose. -/
theorem run_add {s t : State} (n m : Nat) (h : Sys2Proof.core.run n s = .next t) :
    Sys2Proof.core.run (n + m) s = Sys2Proof.core.run m t := by
  induction n generalizing s with
  | zero =>
    have hz : s = t := by injection h
    subst hz
    rw [Nat.zero_add]
  | succ n ih =>
    cases hs : step s with
    | next u =>
      rw [run_succ n hs] at h
      rw [Nat.add_right_comm, run_succ (n + m) hs]
      exact ih h
    | fault r =>
      have hc : Sys2Proof.core.step s = .fault r := hs
      simp only [Host.Core.run, hc] at h
      cases h
    | refused r =>
      have hc : Sys2Proof.core.step s = .refused r := hs
      simp only [Host.Core.run, hc] at h
      cases h

end Sys2Proof.Laws
end

