-- ==== Sys2Proof/Laws/State.lean ====
section
/-! SUPPORT. What each shared update does to each field of State, one lemma a field, so that no proof unfolds a
record update. -/

namespace Sys2Proof.Laws

open Sys2Proof.Machine

@[simp] theorem raise_inited (r : Reason) (s : State) : (raise r s).inited = s.inited := rfl
@[simp] theorem raise_boundLink (r : Reason) (s : State) : (raise r s).boundLink = s.boundLink := rfl
@[simp] theorem raise_txDone (r : Reason) (s : State) : (raise r s).txDone = s.txDone := rfl
@[simp] theorem raise_rxDone (r : Reason) (s : State) : (raise r s).rxDone = s.rxDone := rfl
@[simp] theorem raise_timing (r : Reason) (s : State) : (raise r s).timing = s.timing := rfl
@[simp] theorem raise_txBuf (r : Reason) (s : State) : (raise r s).txBuf = s.txBuf := rfl
@[simp] theorem raise_txLen (r : Reason) (s : State) : (raise r s).txLen = s.txLen := rfl
@[simp] theorem raise_rxBuf (r : Reason) (s : State) : (raise r s).rxBuf = s.rxBuf := rfl
@[simp] theorem raise_rxLen (r : Reason) (s : State) : (raise r s).rxLen = s.rxLen := rfl
@[simp] theorem raise_txInflight (r : Reason) (s : State) : (raise r s).txInflight = s.txInflight := rfl
@[simp] theorem raise_rxInflight (r : Reason) (s : State) : (raise r s).rxInflight = s.rxInflight := rfl
@[simp] theorem raise_lastDiscrepancy (r : Reason) (s : State) :
    (raise r s).lastDiscrepancy = s.lastDiscrepancy := rfl
@[simp] theorem raise_lastDeviceFlag (r : Reason) (s : State) : (raise r s).lastDeviceFlag = s.lastDeviceFlag := rfl
@[simp] theorem raise_lastRom (r : Reason) (s : State) : (raise r s).lastRom = s.lastRom := rfl
@[simp] theorem raise_rOk (r : Reason) (s : State) : (raise r s).rOk = s.rOk := rfl
@[simp] theorem raise_rBit (r : Reason) (s : State) : (raise r s).rBit = s.rBit := rfl
@[simp] theorem raise_rPresence (r : Reason) (s : State) : (raise r s).rPresence = s.rPresence := rfl
@[simp] theorem raise_rRom (r : Reason) (s : State) : (raise r s).rRom = s.rRom := rfl
@[simp] theorem raise_linkIn (r : Reason) (s : State) : (raise r s).linkIn = s.linkIn := rfl
@[simp] theorem raise_dataIn (r : Reason) (s : State) : (raise r s).dataIn = s.dataIn := rfl
@[simp] theorem raise_addrIn (r : Reason) (s : State) : (raise r s).addrIn = s.addrIn := rfl
@[simp] theorem raise_seq (r : Reason) (s : State) : (raise r s).seq = s.seq := rfl
@[simp] theorem raise_i (r : Reason) (s : State) : (raise r s).i = s.i := rfl
@[simp] theorem raise_lastZero (r : Reason) (s : State) : (raise r s).lastZero = s.lastZero := rfl
@[simp] theorem raise_romWork (r : Reason) (s : State) : (raise r s).romWork = s.romWork := rfl
@[simp] theorem raise_idB (r : Reason) (s : State) : (raise r s).idB = s.idB := rfl
@[simp] theorem raise_cmpB (r : Reason) (s : State) : (raise r s).cmpB = s.cmpB := rfl
@[simp] theorem raise_dir (r : Reason) (s : State) : (raise r s).dir = s.dir := rfl
@[simp] theorem raise_wire (r : Reason) (s : State) : (raise r s).wire = s.wire := rfl
@[simp] theorem raise_txPending (r : Reason) (s : State) : (raise r s).txPending = s.txPending := rfl
@[simp] theorem raise_rxPending (r : Reason) (s : State) : (raise r s).rxPending = s.rxPending := rfl
@[simp] theorem raise_program (r : Reason) (s : State) : (raise r s).program = s.program := rfl
@[simp] theorem raise_clients (r : Reason) (s : State) : (raise r s).clients = s.clients := rfl
@[simp] theorem raise_bus (r : Reason) (s : State) : (raise r s).bus = s.bus := rfl
@[simp] theorem raise_turns (r : Reason) (s : State) : (raise r s).turns = s.turns := rfl
@[simp] theorem raise_params (r : Reason) (s : State) : (raise r s).params = s.params := rfl
@[simp] theorem raise_draws (r : Reason) (s : State) : (raise r s).draws = s.draws := rfl

@[simp] theorem txIssue_inited (k : Nat) (s : State) : (txIssue k s).inited = s.inited := rfl
@[simp] theorem txIssue_boundLink (k : Nat) (s : State) : (txIssue k s).boundLink = s.boundLink := rfl
@[simp] theorem txIssue_txDone (k : Nat) (s : State) : (txIssue k s).txDone = false := rfl
@[simp] theorem txIssue_rxDone (k : Nat) (s : State) : (txIssue k s).rxDone = s.rxDone := rfl
@[simp] theorem txIssue_timing (k : Nat) (s : State) : (txIssue k s).timing = s.timing := rfl
@[simp] theorem txIssue_txBuf (k : Nat) (s : State) : (txIssue k s).txBuf = s.txBuf := rfl
@[simp] theorem txIssue_txLen (k : Nat) (s : State) : (txIssue k s).txLen = k := rfl
@[simp] theorem txIssue_rxBuf (k : Nat) (s : State) : (txIssue k s).rxBuf = s.rxBuf := rfl
@[simp] theorem txIssue_rxLen (k : Nat) (s : State) : (txIssue k s).rxLen = s.rxLen := rfl
@[simp] theorem txIssue_txInflight (k : Nat) (s : State) : (txIssue k s).txInflight = some k := rfl
@[simp] theorem txIssue_rxInflight (k : Nat) (s : State) : (txIssue k s).rxInflight = s.rxInflight := rfl
@[simp] theorem txIssue_lastDiscrepancy (k : Nat) (s : State) :
    (txIssue k s).lastDiscrepancy = s.lastDiscrepancy := rfl
@[simp] theorem txIssue_lastDeviceFlag (k : Nat) (s : State) : (txIssue k s).lastDeviceFlag = s.lastDeviceFlag := rfl
@[simp] theorem txIssue_lastRom (k : Nat) (s : State) : (txIssue k s).lastRom = s.lastRom := rfl
@[simp] theorem txIssue_rOk (k : Nat) (s : State) : (txIssue k s).rOk = s.rOk := rfl
@[simp] theorem txIssue_rBit (k : Nat) (s : State) : (txIssue k s).rBit = s.rBit := rfl
@[simp] theorem txIssue_rPresence (k : Nat) (s : State) : (txIssue k s).rPresence = s.rPresence := rfl
@[simp] theorem txIssue_rRom (k : Nat) (s : State) : (txIssue k s).rRom = s.rRom := rfl
@[simp] theorem txIssue_linkIn (k : Nat) (s : State) : (txIssue k s).linkIn = s.linkIn := rfl
@[simp] theorem txIssue_dataIn (k : Nat) (s : State) : (txIssue k s).dataIn = s.dataIn := rfl
@[simp] theorem txIssue_addrIn (k : Nat) (s : State) : (txIssue k s).addrIn = s.addrIn := rfl
@[simp] theorem txIssue_seq (k : Nat) (s : State) : (txIssue k s).seq = s.seq := rfl
@[simp] theorem txIssue_i (k : Nat) (s : State) : (txIssue k s).i = s.i := rfl
@[simp] theorem txIssue_lastZero (k : Nat) (s : State) : (txIssue k s).lastZero = s.lastZero := rfl
@[simp] theorem txIssue_romWork (k : Nat) (s : State) : (txIssue k s).romWork = s.romWork := rfl
@[simp] theorem txIssue_idB (k : Nat) (s : State) : (txIssue k s).idB = s.idB := rfl
@[simp] theorem txIssue_cmpB (k : Nat) (s : State) : (txIssue k s).cmpB = s.cmpB := rfl
@[simp] theorem txIssue_dir (k : Nat) (s : State) : (txIssue k s).dir = s.dir := rfl
@[simp] theorem txIssue_wire (k : Nat) (s : State) : (txIssue k s).wire = s.wire := rfl
@[simp] theorem txIssue_fault (k : Nat) (s : State) : (txIssue k s).fault = s.fault := rfl
@[simp] theorem txIssue_txPending (k : Nat) (s : State) : (txIssue k s).txPending = s.txPending := rfl
@[simp] theorem txIssue_rxPending (k : Nat) (s : State) : (txIssue k s).rxPending = s.rxPending := rfl
@[simp] theorem txIssue_program (k : Nat) (s : State) : (txIssue k s).program = s.program := rfl
@[simp] theorem txIssue_clients (k : Nat) (s : State) : (txIssue k s).clients = s.clients := rfl
@[simp] theorem txIssue_bus (k : Nat) (s : State) : (txIssue k s).bus = s.bus := rfl
@[simp] theorem txIssue_turns (k : Nat) (s : State) : (txIssue k s).turns = s.turns := rfl
@[simp] theorem txIssue_params (k : Nat) (s : State) : (txIssue k s).params = s.params := rfl
@[simp] theorem txIssue_draws (k : Nat) (s : State) : (txIssue k s).draws = s.draws := rfl

@[simp] theorem rxIssue_inited (n : Nat) (s : State) : (rxIssue n s).inited = s.inited := rfl
@[simp] theorem rxIssue_boundLink (n : Nat) (s : State) : (rxIssue n s).boundLink = s.boundLink := rfl
@[simp] theorem rxIssue_txDone (n : Nat) (s : State) : (rxIssue n s).txDone = s.txDone := rfl
@[simp] theorem rxIssue_rxDone (n : Nat) (s : State) : (rxIssue n s).rxDone = false := rfl
@[simp] theorem rxIssue_timing (n : Nat) (s : State) : (rxIssue n s).timing = s.timing := rfl
@[simp] theorem rxIssue_txBuf (n : Nat) (s : State) : (rxIssue n s).txBuf = s.txBuf := rfl
@[simp] theorem rxIssue_txLen (n : Nat) (s : State) : (rxIssue n s).txLen = s.txLen := rfl
@[simp] theorem rxIssue_rxBuf (n : Nat) (s : State) : (rxIssue n s).rxBuf = rxBufFree s.draws := rfl
@[simp] theorem rxIssue_rxLen (n : Nat) (s : State) : (rxIssue n s).rxLen = n := rfl
@[simp] theorem rxIssue_txInflight (n : Nat) (s : State) : (rxIssue n s).txInflight = s.txInflight := rfl
@[simp] theorem rxIssue_rxInflight (n : Nat) (s : State) : (rxIssue n s).rxInflight = some n := rfl
@[simp] theorem rxIssue_lastDiscrepancy (n : Nat) (s : State) :
    (rxIssue n s).lastDiscrepancy = s.lastDiscrepancy := rfl
@[simp] theorem rxIssue_lastDeviceFlag (n : Nat) (s : State) : (rxIssue n s).lastDeviceFlag = s.lastDeviceFlag := rfl
@[simp] theorem rxIssue_lastRom (n : Nat) (s : State) : (rxIssue n s).lastRom = s.lastRom := rfl
@[simp] theorem rxIssue_rOk (n : Nat) (s : State) : (rxIssue n s).rOk = s.rOk := rfl
@[simp] theorem rxIssue_rBit (n : Nat) (s : State) : (rxIssue n s).rBit = s.rBit := rfl
@[simp] theorem rxIssue_rPresence (n : Nat) (s : State) : (rxIssue n s).rPresence = s.rPresence := rfl
@[simp] theorem rxIssue_rRom (n : Nat) (s : State) : (rxIssue n s).rRom = s.rRom := rfl
@[simp] theorem rxIssue_linkIn (n : Nat) (s : State) : (rxIssue n s).linkIn = s.linkIn := rfl
@[simp] theorem rxIssue_dataIn (n : Nat) (s : State) : (rxIssue n s).dataIn = s.dataIn := rfl
@[simp] theorem rxIssue_addrIn (n : Nat) (s : State) : (rxIssue n s).addrIn = s.addrIn := rfl
@[simp] theorem rxIssue_seq (n : Nat) (s : State) : (rxIssue n s).seq = s.seq := rfl
@[simp] theorem rxIssue_i (n : Nat) (s : State) : (rxIssue n s).i = s.i := rfl
@[simp] theorem rxIssue_lastZero (n : Nat) (s : State) : (rxIssue n s).lastZero = s.lastZero := rfl
@[simp] theorem rxIssue_romWork (n : Nat) (s : State) : (rxIssue n s).romWork = s.romWork := rfl
@[simp] theorem rxIssue_idB (n : Nat) (s : State) : (rxIssue n s).idB = s.idB := rfl
@[simp] theorem rxIssue_cmpB (n : Nat) (s : State) : (rxIssue n s).cmpB = s.cmpB := rfl
@[simp] theorem rxIssue_dir (n : Nat) (s : State) : (rxIssue n s).dir = s.dir := rfl
@[simp] theorem rxIssue_wire (n : Nat) (s : State) : (rxIssue n s).wire = s.wire := rfl
@[simp] theorem rxIssue_fault (n : Nat) (s : State) : (rxIssue n s).fault = s.fault := rfl
@[simp] theorem rxIssue_txPending (n : Nat) (s : State) : (rxIssue n s).txPending = s.txPending := rfl
@[simp] theorem rxIssue_rxPending (n : Nat) (s : State) : (rxIssue n s).rxPending = s.rxPending := rfl
@[simp] theorem rxIssue_program (n : Nat) (s : State) : (rxIssue n s).program = s.program := rfl
@[simp] theorem rxIssue_clients (n : Nat) (s : State) : (rxIssue n s).clients = s.clients := rfl
@[simp] theorem rxIssue_bus (n : Nat) (s : State) : (rxIssue n s).bus = s.bus := rfl
@[simp] theorem rxIssue_turns (n : Nat) (s : State) : (rxIssue n s).turns = s.turns := rfl
@[simp] theorem rxIssue_params (n : Nat) (s : State) : (rxIssue n s).params = s.params := rfl
@[simp] theorem rxIssue_draws (n : Nat) (s : State) : (rxIssue n s).draws = s.draws + 1 := rfl

@[simp] theorem sendSymbols_inited (syms : List Symbol) (s : State) : (sendSymbols syms s).inited = s.inited := rfl
@[simp] theorem sendSymbols_boundLink (syms : List Symbol) (s : State) :
    (sendSymbols syms s).boundLink = s.boundLink := rfl
@[simp] theorem sendSymbols_txDone (syms : List Symbol) (s : State) : (sendSymbols syms s).txDone = false := rfl
@[simp] theorem sendSymbols_rxDone (syms : List Symbol) (s : State) : (sendSymbols syms s).rxDone = s.rxDone := rfl
@[simp] theorem sendSymbols_timing (syms : List Symbol) (s : State) : (sendSymbols syms s).timing = s.timing := rfl
@[simp] theorem sendSymbols_txBuf (syms : List Symbol) (s : State) :
    (sendSymbols syms s).txBuf = txBufOf syms s.draws := rfl
@[simp] theorem sendSymbols_txLen (syms : List Symbol) (s : State) : (sendSymbols syms s).txLen = syms.length := rfl
@[simp] theorem sendSymbols_rxBuf (syms : List Symbol) (s : State) : (sendSymbols syms s).rxBuf = s.rxBuf := rfl
@[simp] theorem sendSymbols_rxLen (syms : List Symbol) (s : State) : (sendSymbols syms s).rxLen = s.rxLen := rfl
@[simp] theorem sendSymbols_txInflight (syms : List Symbol) (s : State) :
    (sendSymbols syms s).txInflight = some syms.length := rfl
@[simp] theorem sendSymbols_rxInflight (syms : List Symbol) (s : State) :
    (sendSymbols syms s).rxInflight = s.rxInflight := rfl
@[simp] theorem sendSymbols_lastDiscrepancy (syms : List Symbol) (s : State) :
    (sendSymbols syms s).lastDiscrepancy = s.lastDiscrepancy := rfl
@[simp] theorem sendSymbols_lastDeviceFlag (syms : List Symbol) (s : State) :
    (sendSymbols syms s).lastDeviceFlag = s.lastDeviceFlag := rfl
@[simp] theorem sendSymbols_lastRom (syms : List Symbol) (s : State) : (sendSymbols syms s).lastRom = s.lastRom := rfl
@[simp] theorem sendSymbols_rOk (syms : List Symbol) (s : State) : (sendSymbols syms s).rOk = s.rOk := rfl
@[simp] theorem sendSymbols_rBit (syms : List Symbol) (s : State) : (sendSymbols syms s).rBit = s.rBit := rfl
@[simp] theorem sendSymbols_rPresence (syms : List Symbol) (s : State) :
    (sendSymbols syms s).rPresence = s.rPresence := rfl
@[simp] theorem sendSymbols_rRom (syms : List Symbol) (s : State) : (sendSymbols syms s).rRom = s.rRom := rfl
@[simp] theorem sendSymbols_linkIn (syms : List Symbol) (s : State) : (sendSymbols syms s).linkIn = s.linkIn := rfl
@[simp] theorem sendSymbols_dataIn (syms : List Symbol) (s : State) : (sendSymbols syms s).dataIn = s.dataIn := rfl
@[simp] theorem sendSymbols_addrIn (syms : List Symbol) (s : State) : (sendSymbols syms s).addrIn = s.addrIn := rfl
@[simp] theorem sendSymbols_seq (syms : List Symbol) (s : State) : (sendSymbols syms s).seq = s.seq := rfl
@[simp] theorem sendSymbols_i (syms : List Symbol) (s : State) : (sendSymbols syms s).i = s.i := rfl
@[simp] theorem sendSymbols_lastZero (syms : List Symbol) (s : State) :
    (sendSymbols syms s).lastZero = s.lastZero := rfl
@[simp] theorem sendSymbols_romWork (syms : List Symbol) (s : State) : (sendSymbols syms s).romWork = s.romWork := rfl
@[simp] theorem sendSymbols_idB (syms : List Symbol) (s : State) : (sendSymbols syms s).idB = s.idB := rfl
@[simp] theorem sendSymbols_cmpB (syms : List Symbol) (s : State) : (sendSymbols syms s).cmpB = s.cmpB := rfl
@[simp] theorem sendSymbols_dir (syms : List Symbol) (s : State) : (sendSymbols syms s).dir = s.dir := rfl
@[simp] theorem sendSymbols_wire (syms : List Symbol) (s : State) : (sendSymbols syms s).wire = s.wire := rfl
@[simp] theorem sendSymbols_fault (syms : List Symbol) (s : State) : (sendSymbols syms s).fault = s.fault := rfl
@[simp] theorem sendSymbols_txPending (syms : List Symbol) (s : State) :
    (sendSymbols syms s).txPending = s.txPending := rfl
@[simp] theorem sendSymbols_rxPending (syms : List Symbol) (s : State) :
    (sendSymbols syms s).rxPending = s.rxPending := rfl
@[simp] theorem sendSymbols_program (syms : List Symbol) (s : State) : (sendSymbols syms s).program = s.program := rfl
@[simp] theorem sendSymbols_clients (syms : List Symbol) (s : State) : (sendSymbols syms s).clients = s.clients := rfl
@[simp] theorem sendSymbols_bus (syms : List Symbol) (s : State) : (sendSymbols syms s).bus = s.bus := rfl
@[simp] theorem sendSymbols_turns (syms : List Symbol) (s : State) : (sendSymbols syms s).turns = s.turns := rfl
@[simp] theorem sendSymbols_params (syms : List Symbol) (s : State) : (sendSymbols syms s).params = s.params := rfl
@[simp] theorem sendSymbols_draws (syms : List Symbol) (s : State) : (sendSymbols syms s).draws = s.draws + 1 := rfl

@[simp] theorem readSlots_inited (n : Nat) (s : State) : (readSlots n s).inited = s.inited := rfl
@[simp] theorem readSlots_boundLink (n : Nat) (s : State) : (readSlots n s).boundLink = s.boundLink := rfl
@[simp] theorem readSlots_txDone (n : Nat) (s : State) : (readSlots n s).txDone = false := rfl
@[simp] theorem readSlots_rxDone (n : Nat) (s : State) : (readSlots n s).rxDone = false := rfl
@[simp] theorem readSlots_timing (n : Nat) (s : State) : (readSlots n s).timing = s.timing := rfl
@[simp] theorem readSlots_txBuf (n : Nat) (s : State) :
    (readSlots n s).txBuf = txBufOf (List.replicate n s.params.symIdle) (s.draws + 1) := rfl
@[simp] theorem readSlots_rxBuf (n : Nat) (s : State) : (readSlots n s).rxBuf = rxBufFree s.draws := rfl
@[simp] theorem readSlots_rxLen (n : Nat) (s : State) : (readSlots n s).rxLen = n := rfl
@[simp] theorem readSlots_rxInflight (n : Nat) (s : State) : (readSlots n s).rxInflight = some n := rfl
@[simp] theorem readSlots_lastDiscrepancy (n : Nat) (s : State) :
    (readSlots n s).lastDiscrepancy = s.lastDiscrepancy := rfl
@[simp] theorem readSlots_lastDeviceFlag (n : Nat) (s : State) :
    (readSlots n s).lastDeviceFlag = s.lastDeviceFlag := rfl
@[simp] theorem readSlots_lastRom (n : Nat) (s : State) : (readSlots n s).lastRom = s.lastRom := rfl
@[simp] theorem readSlots_rOk (n : Nat) (s : State) : (readSlots n s).rOk = s.rOk := rfl
@[simp] theorem readSlots_rBit (n : Nat) (s : State) : (readSlots n s).rBit = s.rBit := rfl
@[simp] theorem readSlots_rPresence (n : Nat) (s : State) : (readSlots n s).rPresence = s.rPresence := rfl
@[simp] theorem readSlots_rRom (n : Nat) (s : State) : (readSlots n s).rRom = s.rRom := rfl
@[simp] theorem readSlots_linkIn (n : Nat) (s : State) : (readSlots n s).linkIn = s.linkIn := rfl
@[simp] theorem readSlots_dataIn (n : Nat) (s : State) : (readSlots n s).dataIn = s.dataIn := rfl
@[simp] theorem readSlots_addrIn (n : Nat) (s : State) : (readSlots n s).addrIn = s.addrIn := rfl
@[simp] theorem readSlots_seq (n : Nat) (s : State) : (readSlots n s).seq = s.seq := rfl
@[simp] theorem readSlots_i (n : Nat) (s : State) : (readSlots n s).i = s.i := rfl
@[simp] theorem readSlots_lastZero (n : Nat) (s : State) : (readSlots n s).lastZero = s.lastZero := rfl
@[simp] theorem readSlots_romWork (n : Nat) (s : State) : (readSlots n s).romWork = s.romWork := rfl
@[simp] theorem readSlots_idB (n : Nat) (s : State) : (readSlots n s).idB = s.idB := rfl
@[simp] theorem readSlots_cmpB (n : Nat) (s : State) : (readSlots n s).cmpB = s.cmpB := rfl
@[simp] theorem readSlots_dir (n : Nat) (s : State) : (readSlots n s).dir = s.dir := rfl
@[simp] theorem readSlots_wire (n : Nat) (s : State) : (readSlots n s).wire = s.wire := rfl
@[simp] theorem readSlots_fault (n : Nat) (s : State) : (readSlots n s).fault = s.fault := rfl
@[simp] theorem readSlots_txPending (n : Nat) (s : State) : (readSlots n s).txPending = s.txPending := rfl
@[simp] theorem readSlots_rxPending (n : Nat) (s : State) : (readSlots n s).rxPending = s.rxPending := rfl
@[simp] theorem readSlots_program (n : Nat) (s : State) : (readSlots n s).program = s.program := rfl
@[simp] theorem readSlots_clients (n : Nat) (s : State) : (readSlots n s).clients = s.clients := rfl
@[simp] theorem readSlots_bus (n : Nat) (s : State) : (readSlots n s).bus = s.bus := rfl
@[simp] theorem readSlots_turns (n : Nat) (s : State) : (readSlots n s).turns = s.turns := rfl
@[simp] theorem readSlots_params (n : Nat) (s : State) : (readSlots n s).params = s.params := rfl
@[simp] theorem readSlots_draws (n : Nat) (s : State) : (readSlots n s).draws = s.draws + 2 := rfl

@[simp] theorem startReset_inited (s : State) : (startReset s).inited = s.inited := rfl
@[simp] theorem startReset_boundLink (s : State) : (startReset s).boundLink = s.boundLink := rfl
@[simp] theorem startReset_txDone (s : State) : (startReset s).txDone = s.txDone := rfl
@[simp] theorem startReset_rxDone (s : State) : (startReset s).rxDone = s.rxDone := rfl
@[simp] theorem startReset_timing (s : State) : (startReset s).timing = .resetRate := rfl
@[simp] theorem startReset_txBuf (s : State) : (startReset s).txBuf = s.txBuf := rfl
@[simp] theorem startReset_txLen (s : State) : (startReset s).txLen = s.txLen := rfl
@[simp] theorem startReset_rxBuf (s : State) : (startReset s).rxBuf = s.rxBuf := rfl
@[simp] theorem startReset_rxLen (s : State) : (startReset s).rxLen = s.rxLen := rfl
@[simp] theorem startReset_txInflight (s : State) : (startReset s).txInflight = s.txInflight := rfl
@[simp] theorem startReset_rxInflight (s : State) : (startReset s).rxInflight = s.rxInflight := rfl
@[simp] theorem startReset_lastDiscrepancy (s : State) : (startReset s).lastDiscrepancy = s.lastDiscrepancy := rfl
@[simp] theorem startReset_lastDeviceFlag (s : State) : (startReset s).lastDeviceFlag = s.lastDeviceFlag := rfl
@[simp] theorem startReset_lastRom (s : State) : (startReset s).lastRom = s.lastRom := rfl
@[simp] theorem startReset_rOk (s : State) : (startReset s).rOk = s.rOk := rfl
@[simp] theorem startReset_rBit (s : State) : (startReset s).rBit = s.rBit := rfl
@[simp] theorem startReset_rPresence (s : State) : (startReset s).rPresence = s.rPresence := rfl
@[simp] theorem startReset_rRom (s : State) : (startReset s).rRom = s.rRom := rfl
@[simp] theorem startReset_linkIn (s : State) : (startReset s).linkIn = s.linkIn := rfl
@[simp] theorem startReset_dataIn (s : State) : (startReset s).dataIn = s.dataIn := rfl
@[simp] theorem startReset_addrIn (s : State) : (startReset s).addrIn = s.addrIn := rfl
@[simp] theorem startReset_seq (s : State) : (startReset s).seq = s.seq := rfl
@[simp] theorem startReset_i (s : State) : (startReset s).i = s.i := rfl
@[simp] theorem startReset_lastZero (s : State) : (startReset s).lastZero = s.lastZero := rfl
@[simp] theorem startReset_romWork (s : State) : (startReset s).romWork = s.romWork := rfl
@[simp] theorem startReset_idB (s : State) : (startReset s).idB = s.idB := rfl
@[simp] theorem startReset_cmpB (s : State) : (startReset s).cmpB = s.cmpB := rfl
@[simp] theorem startReset_dir (s : State) : (startReset s).dir = s.dir := rfl
@[simp] theorem startReset_wire (s : State) : (startReset s).wire = s.wire := rfl
@[simp] theorem startReset_fault (s : State) : (startReset s).fault = s.fault := rfl
@[simp] theorem startReset_txPending (s : State) : (startReset s).txPending = s.txPending := rfl
@[simp] theorem startReset_rxPending (s : State) : (startReset s).rxPending = s.rxPending := rfl
@[simp] theorem startReset_program (s : State) : (startReset s).program = s.program := rfl
@[simp] theorem startReset_clients (s : State) : (startReset s).clients = s.clients := rfl
@[simp] theorem startReset_bus (s : State) : (startReset s).bus = s.bus := rfl
@[simp] theorem startReset_turns (s : State) : (startReset s).turns = s.turns := rfl
@[simp] theorem startReset_params (s : State) : (startReset s).params = s.params := rfl
@[simp] theorem startReset_draws (s : State) : (startReset s).draws = s.draws := rfl

@[simp] theorem finishReset_inited (s : State) : (finishReset s).inited = s.inited := rfl
@[simp] theorem finishReset_boundLink (s : State) : (finishReset s).boundLink = s.boundLink := rfl
@[simp] theorem finishReset_txDone (s : State) : (finishReset s).txDone = s.txDone := rfl
@[simp] theorem finishReset_rxDone (s : State) : (finishReset s).rxDone = s.rxDone := rfl
@[simp] theorem finishReset_timing (s : State) :
    (finishReset s).timing = if resetOutcome s = .ok then .dataRate else s.timing := rfl
@[simp] theorem finishReset_txBuf (s : State) : (finishReset s).txBuf = s.txBuf := rfl
@[simp] theorem finishReset_txLen (s : State) : (finishReset s).txLen = s.txLen := rfl
@[simp] theorem finishReset_rxBuf (s : State) : (finishReset s).rxBuf = s.rxBuf := rfl
@[simp] theorem finishReset_rxLen (s : State) : (finishReset s).rxLen = s.rxLen := rfl
@[simp] theorem finishReset_txInflight (s : State) : (finishReset s).txInflight = s.txInflight := rfl
@[simp] theorem finishReset_rxInflight (s : State) : (finishReset s).rxInflight = s.rxInflight := rfl
@[simp] theorem finishReset_lastDiscrepancy (s : State) : (finishReset s).lastDiscrepancy = s.lastDiscrepancy := rfl
@[simp] theorem finishReset_lastDeviceFlag (s : State) : (finishReset s).lastDeviceFlag = s.lastDeviceFlag := rfl
@[simp] theorem finishReset_lastRom (s : State) : (finishReset s).lastRom = s.lastRom := rfl
@[simp] theorem finishReset_rOk (s : State) : (finishReset s).rOk = s.rOk := rfl
@[simp] theorem finishReset_rBit (s : State) : (finishReset s).rBit = s.rBit := rfl
@[simp] theorem finishReset_rPresence (s : State) : (finishReset s).rPresence = resetOutcome s := rfl
@[simp] theorem finishReset_rRom (s : State) : (finishReset s).rRom = s.rRom := rfl
@[simp] theorem finishReset_linkIn (s : State) : (finishReset s).linkIn = s.linkIn := rfl
@[simp] theorem finishReset_dataIn (s : State) : (finishReset s).dataIn = s.dataIn := rfl
@[simp] theorem finishReset_addrIn (s : State) : (finishReset s).addrIn = s.addrIn := rfl
@[simp] theorem finishReset_seq (s : State) : (finishReset s).seq = s.seq := rfl
@[simp] theorem finishReset_i (s : State) : (finishReset s).i = s.i := rfl
@[simp] theorem finishReset_lastZero (s : State) : (finishReset s).lastZero = s.lastZero := rfl
@[simp] theorem finishReset_romWork (s : State) : (finishReset s).romWork = s.romWork := rfl
@[simp] theorem finishReset_idB (s : State) : (finishReset s).idB = s.idB := rfl
@[simp] theorem finishReset_cmpB (s : State) : (finishReset s).cmpB = s.cmpB := rfl
@[simp] theorem finishReset_dir (s : State) : (finishReset s).dir = s.dir := rfl
@[simp] theorem finishReset_wire (s : State) :
    (finishReset s).wire = s.wire ++ [.wReset s.params.symReset (busResetEcho s.params s.bus s.wire).1] := rfl
@[simp] theorem finishReset_fault (s : State) : (finishReset s).fault = s.fault := rfl
@[simp] theorem finishReset_txPending (s : State) : (finishReset s).txPending = s.txPending := rfl
@[simp] theorem finishReset_rxPending (s : State) : (finishReset s).rxPending = s.rxPending := rfl
@[simp] theorem finishReset_program (s : State) : (finishReset s).program = s.program := rfl
@[simp] theorem finishReset_clients (s : State) : (finishReset s).clients = s.clients := rfl
@[simp] theorem finishReset_bus (s : State) : (finishReset s).bus = (busResetEcho s.params s.bus s.wire).2 := rfl
@[simp] theorem finishReset_turns (s : State) : (finishReset s).turns = s.turns := rfl
@[simp] theorem finishReset_params (s : State) : (finishReset s).params = s.params := rfl
@[simp] theorem finishReset_draws (s : State) : (finishReset s).draws = s.draws := rfl

@[simp] theorem restartSearch_inited (s : State) : (restartSearch s).inited = s.inited := rfl
@[simp] theorem restartSearch_boundLink (s : State) : (restartSearch s).boundLink = s.boundLink := rfl
@[simp] theorem restartSearch_txDone (s : State) : (restartSearch s).txDone = s.txDone := rfl
@[simp] theorem restartSearch_rxDone (s : State) : (restartSearch s).rxDone = s.rxDone := rfl
@[simp] theorem restartSearch_timing (s : State) : (restartSearch s).timing = s.timing := rfl
@[simp] theorem restartSearch_txBuf (s : State) : (restartSearch s).txBuf = s.txBuf := rfl
@[simp] theorem restartSearch_txLen (s : State) : (restartSearch s).txLen = s.txLen := rfl
@[simp] theorem restartSearch_rxBuf (s : State) : (restartSearch s).rxBuf = s.rxBuf := rfl
@[simp] theorem restartSearch_rxLen (s : State) : (restartSearch s).rxLen = s.rxLen := rfl
@[simp] theorem restartSearch_txInflight (s : State) : (restartSearch s).txInflight = s.txInflight := rfl
@[simp] theorem restartSearch_rxInflight (s : State) : (restartSearch s).rxInflight = s.rxInflight := rfl
@[simp] theorem restartSearch_lastDiscrepancy (s : State) : (restartSearch s).lastDiscrepancy = 0 := rfl
@[simp] theorem restartSearch_lastDeviceFlag (s : State) : (restartSearch s).lastDeviceFlag = false := rfl
@[simp] theorem restartSearch_lastRom (s : State) : (restartSearch s).lastRom = s.lastRom := rfl
@[simp] theorem restartSearch_rOk (s : State) : (restartSearch s).rOk = s.rOk := rfl
@[simp] theorem restartSearch_rBit (s : State) : (restartSearch s).rBit = s.rBit := rfl
@[simp] theorem restartSearch_rPresence (s : State) : (restartSearch s).rPresence = s.rPresence := rfl
@[simp] theorem restartSearch_rRom (s : State) : (restartSearch s).rRom = s.rRom := rfl
@[simp] theorem restartSearch_linkIn (s : State) : (restartSearch s).linkIn = s.linkIn := rfl
@[simp] theorem restartSearch_dataIn (s : State) : (restartSearch s).dataIn = s.dataIn := rfl
@[simp] theorem restartSearch_addrIn (s : State) : (restartSearch s).addrIn = s.addrIn := rfl
@[simp] theorem restartSearch_seq (s : State) : (restartSearch s).seq = s.seq := rfl
@[simp] theorem restartSearch_i (s : State) : (restartSearch s).i = s.i := rfl
@[simp] theorem restartSearch_lastZero (s : State) : (restartSearch s).lastZero = s.lastZero := rfl
@[simp] theorem restartSearch_romWork (s : State) : (restartSearch s).romWork = s.romWork := rfl
@[simp] theorem restartSearch_idB (s : State) : (restartSearch s).idB = s.idB := rfl
@[simp] theorem restartSearch_cmpB (s : State) : (restartSearch s).cmpB = s.cmpB := rfl
@[simp] theorem restartSearch_dir (s : State) : (restartSearch s).dir = s.dir := rfl
@[simp] theorem restartSearch_wire (s : State) : (restartSearch s).wire = s.wire := rfl
@[simp] theorem restartSearch_fault (s : State) : (restartSearch s).fault = s.fault := rfl
@[simp] theorem restartSearch_txPending (s : State) : (restartSearch s).txPending = s.txPending := rfl
@[simp] theorem restartSearch_rxPending (s : State) : (restartSearch s).rxPending = s.rxPending := rfl
@[simp] theorem restartSearch_program (s : State) : (restartSearch s).program = s.program := rfl
@[simp] theorem restartSearch_clients (s : State) : (restartSearch s).clients = s.clients := rfl
@[simp] theorem restartSearch_bus (s : State) : (restartSearch s).bus = s.bus := rfl
@[simp] theorem restartSearch_turns (s : State) : (restartSearch s).turns = s.turns := rfl
@[simp] theorem restartSearch_params (s : State) : (restartSearch s).params = s.params := rfl
@[simp] theorem restartSearch_draws (s : State) : (restartSearch s).draws = s.draws := rfl

@[simp] theorem searchFalse_inited (s : State) : (searchFalse s).inited = s.inited := rfl
@[simp] theorem searchFalse_boundLink (s : State) : (searchFalse s).boundLink = s.boundLink := rfl
@[simp] theorem searchFalse_txDone (s : State) : (searchFalse s).txDone = s.txDone := rfl
@[simp] theorem searchFalse_rxDone (s : State) : (searchFalse s).rxDone = s.rxDone := rfl
@[simp] theorem searchFalse_timing (s : State) : (searchFalse s).timing = s.timing := rfl
@[simp] theorem searchFalse_txBuf (s : State) : (searchFalse s).txBuf = s.txBuf := rfl
@[simp] theorem searchFalse_txLen (s : State) : (searchFalse s).txLen = s.txLen := rfl
@[simp] theorem searchFalse_rxBuf (s : State) : (searchFalse s).rxBuf = s.rxBuf := rfl
@[simp] theorem searchFalse_rxLen (s : State) : (searchFalse s).rxLen = s.rxLen := rfl
@[simp] theorem searchFalse_txInflight (s : State) : (searchFalse s).txInflight = s.txInflight := rfl
@[simp] theorem searchFalse_rxInflight (s : State) : (searchFalse s).rxInflight = s.rxInflight := rfl
@[simp] theorem searchFalse_lastDiscrepancy (s : State) : (searchFalse s).lastDiscrepancy = s.lastDiscrepancy := rfl
@[simp] theorem searchFalse_lastDeviceFlag (s : State) : (searchFalse s).lastDeviceFlag = s.lastDeviceFlag := rfl
@[simp] theorem searchFalse_lastRom (s : State) : (searchFalse s).lastRom = s.lastRom := rfl
@[simp] theorem searchFalse_rOk (s : State) : (searchFalse s).rOk = false := rfl
@[simp] theorem searchFalse_rBit (s : State) : (searchFalse s).rBit = s.rBit := rfl
@[simp] theorem searchFalse_rPresence (s : State) : (searchFalse s).rPresence = s.rPresence := rfl
@[simp] theorem searchFalse_rRom (s : State) : (searchFalse s).rRom = s.rRom := rfl
@[simp] theorem searchFalse_linkIn (s : State) : (searchFalse s).linkIn = s.linkIn := rfl
@[simp] theorem searchFalse_dataIn (s : State) : (searchFalse s).dataIn = s.dataIn := rfl
@[simp] theorem searchFalse_addrIn (s : State) : (searchFalse s).addrIn = s.addrIn := rfl
@[simp] theorem searchFalse_seq (s : State) : (searchFalse s).seq = .idle := rfl
@[simp] theorem searchFalse_i (s : State) : (searchFalse s).i = s.i := rfl
@[simp] theorem searchFalse_lastZero (s : State) : (searchFalse s).lastZero = s.lastZero := rfl
@[simp] theorem searchFalse_romWork (s : State) : (searchFalse s).romWork = s.romWork := rfl
@[simp] theorem searchFalse_idB (s : State) : (searchFalse s).idB = s.idB := rfl
@[simp] theorem searchFalse_cmpB (s : State) : (searchFalse s).cmpB = s.cmpB := rfl
@[simp] theorem searchFalse_dir (s : State) : (searchFalse s).dir = s.dir := rfl
@[simp] theorem searchFalse_wire (s : State) : (searchFalse s).wire = s.wire := rfl
@[simp] theorem searchFalse_fault (s : State) : (searchFalse s).fault = s.fault := rfl
@[simp] theorem searchFalse_txPending (s : State) : (searchFalse s).txPending = s.txPending := rfl
@[simp] theorem searchFalse_rxPending (s : State) : (searchFalse s).rxPending = s.rxPending := rfl
@[simp] theorem searchFalse_program (s : State) : (searchFalse s).program = s.program := rfl
@[simp] theorem searchFalse_clients (s : State) : (searchFalse s).clients = s.clients := rfl
@[simp] theorem searchFalse_bus (s : State) : (searchFalse s).bus = s.bus := rfl
@[simp] theorem searchFalse_turns (s : State) : (searchFalse s).turns = s.turns := rfl
@[simp] theorem searchFalse_params (s : State) : (searchFalse s).params = s.params := rfl
@[simp] theorem searchFalse_draws (s : State) : (searchFalse s).draws = s.draws := rfl

@[simp] theorem pushOps_inited (ops : List HostOp) (s : State) : (pushOps ops s).inited = s.inited := rfl
@[simp] theorem pushOps_boundLink (ops : List HostOp) (s : State) : (pushOps ops s).boundLink = s.boundLink := rfl
@[simp] theorem pushOps_txDone (ops : List HostOp) (s : State) : (pushOps ops s).txDone = s.txDone := rfl
@[simp] theorem pushOps_rxDone (ops : List HostOp) (s : State) : (pushOps ops s).rxDone = s.rxDone := rfl
@[simp] theorem pushOps_timing (ops : List HostOp) (s : State) : (pushOps ops s).timing = s.timing := rfl
@[simp] theorem pushOps_txBuf (ops : List HostOp) (s : State) : (pushOps ops s).txBuf = s.txBuf := rfl
@[simp] theorem pushOps_txLen (ops : List HostOp) (s : State) : (pushOps ops s).txLen = s.txLen := rfl
@[simp] theorem pushOps_rxBuf (ops : List HostOp) (s : State) : (pushOps ops s).rxBuf = s.rxBuf := rfl
@[simp] theorem pushOps_rxLen (ops : List HostOp) (s : State) : (pushOps ops s).rxLen = s.rxLen := rfl
@[simp] theorem pushOps_txInflight (ops : List HostOp) (s : State) : (pushOps ops s).txInflight = s.txInflight := rfl
@[simp] theorem pushOps_rxInflight (ops : List HostOp) (s : State) : (pushOps ops s).rxInflight = s.rxInflight := rfl
@[simp] theorem pushOps_lastDiscrepancy (ops : List HostOp) (s : State) :
    (pushOps ops s).lastDiscrepancy = s.lastDiscrepancy := rfl
@[simp] theorem pushOps_lastDeviceFlag (ops : List HostOp) (s : State) :
    (pushOps ops s).lastDeviceFlag = s.lastDeviceFlag := rfl
@[simp] theorem pushOps_lastRom (ops : List HostOp) (s : State) : (pushOps ops s).lastRom = s.lastRom := rfl
@[simp] theorem pushOps_rOk (ops : List HostOp) (s : State) : (pushOps ops s).rOk = s.rOk := rfl
@[simp] theorem pushOps_rBit (ops : List HostOp) (s : State) : (pushOps ops s).rBit = s.rBit := rfl
@[simp] theorem pushOps_rPresence (ops : List HostOp) (s : State) : (pushOps ops s).rPresence = s.rPresence := rfl
@[simp] theorem pushOps_rRom (ops : List HostOp) (s : State) : (pushOps ops s).rRom = s.rRom := rfl
@[simp] theorem pushOps_linkIn (ops : List HostOp) (s : State) : (pushOps ops s).linkIn = s.linkIn := rfl
@[simp] theorem pushOps_dataIn (ops : List HostOp) (s : State) : (pushOps ops s).dataIn = s.dataIn := rfl
@[simp] theorem pushOps_addrIn (ops : List HostOp) (s : State) : (pushOps ops s).addrIn = s.addrIn := rfl
@[simp] theorem pushOps_seq (ops : List HostOp) (s : State) : (pushOps ops s).seq = s.seq := rfl
@[simp] theorem pushOps_i (ops : List HostOp) (s : State) : (pushOps ops s).i = s.i := rfl
@[simp] theorem pushOps_lastZero (ops : List HostOp) (s : State) : (pushOps ops s).lastZero = s.lastZero := rfl
@[simp] theorem pushOps_romWork (ops : List HostOp) (s : State) : (pushOps ops s).romWork = s.romWork := rfl
@[simp] theorem pushOps_idB (ops : List HostOp) (s : State) : (pushOps ops s).idB = s.idB := rfl
@[simp] theorem pushOps_cmpB (ops : List HostOp) (s : State) : (pushOps ops s).cmpB = s.cmpB := rfl
@[simp] theorem pushOps_dir (ops : List HostOp) (s : State) : (pushOps ops s).dir = s.dir := rfl
@[simp] theorem pushOps_wire (ops : List HostOp) (s : State) : (pushOps ops s).wire = s.wire := rfl
@[simp] theorem pushOps_fault (ops : List HostOp) (s : State) : (pushOps ops s).fault = s.fault := rfl
@[simp] theorem pushOps_txPending (ops : List HostOp) (s : State) : (pushOps ops s).txPending = s.txPending := rfl
@[simp] theorem pushOps_rxPending (ops : List HostOp) (s : State) : (pushOps ops s).rxPending = s.rxPending := rfl
@[simp] theorem pushOps_program (ops : List HostOp) (s : State) : (pushOps ops s).program = ops ++ s.program := rfl
@[simp] theorem pushOps_clients (ops : List HostOp) (s : State) : (pushOps ops s).clients = s.clients := rfl
@[simp] theorem pushOps_bus (ops : List HostOp) (s : State) : (pushOps ops s).bus = s.bus := rfl
@[simp] theorem pushOps_turns (ops : List HostOp) (s : State) : (pushOps ops s).turns = s.turns := rfl
@[simp] theorem pushOps_params (ops : List HostOp) (s : State) : (pushOps ops s).params = s.params := rfl
@[simp] theorem pushOps_draws (ops : List HostOp) (s : State) : (pushOps ops s).draws = s.draws := rfl

@[simp] theorem updateDevice_inited (d : Nat) (f : Device → Device) (s : State) :
    (updateDevice d f s).inited = s.inited := rfl
@[simp] theorem updateDevice_boundLink (d : Nat) (f : Device → Device) (s : State) :
    (updateDevice d f s).boundLink = s.boundLink := rfl
@[simp] theorem updateDevice_txDone (d : Nat) (f : Device → Device) (s : State) :
    (updateDevice d f s).txDone = s.txDone := rfl
@[simp] theorem updateDevice_rxDone (d : Nat) (f : Device → Device) (s : State) :
    (updateDevice d f s).rxDone = s.rxDone := rfl
@[simp] theorem updateDevice_timing (d : Nat) (f : Device → Device) (s : State) :
    (updateDevice d f s).timing = s.timing := rfl
@[simp] theorem updateDevice_txBuf (d : Nat) (f : Device → Device) (s : State) :
    (updateDevice d f s).txBuf = s.txBuf := rfl
@[simp] theorem updateDevice_txLen (d : Nat) (f : Device → Device) (s : State) :
    (updateDevice d f s).txLen = s.txLen := rfl
@[simp] theorem updateDevice_rxBuf (d : Nat) (f : Device → Device) (s : State) :
    (updateDevice d f s).rxBuf = s.rxBuf := rfl
@[simp] theorem updateDevice_rxLen (d : Nat) (f : Device → Device) (s : State) :
    (updateDevice d f s).rxLen = s.rxLen := rfl
@[simp] theorem updateDevice_txInflight (d : Nat) (f : Device → Device) (s : State) :
    (updateDevice d f s).txInflight = s.txInflight := rfl
@[simp] theorem updateDevice_rxInflight (d : Nat) (f : Device → Device) (s : State) :
    (updateDevice d f s).rxInflight = s.rxInflight := rfl
@[simp] theorem updateDevice_lastDiscrepancy (d : Nat) (f : Device → Device) (s : State) :
    (updateDevice d f s).lastDiscrepancy = s.lastDiscrepancy := rfl
@[simp] theorem updateDevice_lastDeviceFlag (d : Nat) (f : Device → Device) (s : State) :
    (updateDevice d f s).lastDeviceFlag = s.lastDeviceFlag := rfl
@[simp] theorem updateDevice_lastRom (d : Nat) (f : Device → Device) (s : State) :
    (updateDevice d f s).lastRom = s.lastRom := rfl
@[simp] theorem updateDevice_rOk (d : Nat) (f : Device → Device) (s : State) : (updateDevice d f s).rOk = s.rOk := rfl
@[simp] theorem updateDevice_rBit (d : Nat) (f : Device → Device) (s : State) :
    (updateDevice d f s).rBit = s.rBit := rfl
@[simp] theorem updateDevice_rPresence (d : Nat) (f : Device → Device) (s : State) :
    (updateDevice d f s).rPresence = s.rPresence := rfl
@[simp] theorem updateDevice_rRom (d : Nat) (f : Device → Device) (s : State) :
    (updateDevice d f s).rRom = s.rRom := rfl
@[simp] theorem updateDevice_linkIn (d : Nat) (f : Device → Device) (s : State) :
    (updateDevice d f s).linkIn = s.linkIn := rfl
@[simp] theorem updateDevice_dataIn (d : Nat) (f : Device → Device) (s : State) :
    (updateDevice d f s).dataIn = s.dataIn := rfl
@[simp] theorem updateDevice_addrIn (d : Nat) (f : Device → Device) (s : State) :
    (updateDevice d f s).addrIn = s.addrIn := rfl
@[simp] theorem updateDevice_seq (d : Nat) (f : Device → Device) (s : State) : (updateDevice d f s).seq = s.seq := rfl
@[simp] theorem updateDevice_i (d : Nat) (f : Device → Device) (s : State) : (updateDevice d f s).i = s.i := rfl
@[simp] theorem updateDevice_lastZero (d : Nat) (f : Device → Device) (s : State) :
    (updateDevice d f s).lastZero = s.lastZero := rfl
@[simp] theorem updateDevice_romWork (d : Nat) (f : Device → Device) (s : State) :
    (updateDevice d f s).romWork = s.romWork := rfl
@[simp] theorem updateDevice_idB (d : Nat) (f : Device → Device) (s : State) : (updateDevice d f s).idB = s.idB := rfl
@[simp] theorem updateDevice_cmpB (d : Nat) (f : Device → Device) (s : State) :
    (updateDevice d f s).cmpB = s.cmpB := rfl
@[simp] theorem updateDevice_dir (d : Nat) (f : Device → Device) (s : State) : (updateDevice d f s).dir = s.dir := rfl
@[simp] theorem updateDevice_wire (d : Nat) (f : Device → Device) (s : State) :
    (updateDevice d f s).wire = s.wire := rfl
@[simp] theorem updateDevice_fault (d : Nat) (f : Device → Device) (s : State) :
    (updateDevice d f s).fault = s.fault := rfl
@[simp] theorem updateDevice_txPending (d : Nat) (f : Device → Device) (s : State) :
    (updateDevice d f s).txPending = s.txPending := rfl
@[simp] theorem updateDevice_rxPending (d : Nat) (f : Device → Device) (s : State) :
    (updateDevice d f s).rxPending = s.rxPending := rfl
@[simp] theorem updateDevice_program (d : Nat) (f : Device → Device) (s : State) :
    (updateDevice d f s).program = s.program := rfl
@[simp] theorem updateDevice_clients (d : Nat) (f : Device → Device) (s : State) :
    (updateDevice d f s).clients = { s.clients with devices := s.clients.devices.modify d f } := rfl
@[simp] theorem updateDevice_bus (d : Nat) (f : Device → Device) (s : State) : (updateDevice d f s).bus = s.bus := rfl
@[simp] theorem updateDevice_turns (d : Nat) (f : Device → Device) (s : State) :
    (updateDevice d f s).turns = s.turns := rfl
@[simp] theorem updateDevice_params (d : Nat) (f : Device → Device) (s : State) :
    (updateDevice d f s).params = s.params := rfl
@[simp] theorem updateDevice_draws (d : Nat) (f : Device → Device) (s : State) :
    (updateDevice d f s).draws = s.draws := rfl

@[simp] theorem setOwner_inited (o : Option Nat) (s : State) : (setOwner o s).inited = s.inited := rfl
@[simp] theorem setOwner_boundLink (o : Option Nat) (s : State) : (setOwner o s).boundLink = s.boundLink := rfl
@[simp] theorem setOwner_txDone (o : Option Nat) (s : State) : (setOwner o s).txDone = s.txDone := rfl
@[simp] theorem setOwner_rxDone (o : Option Nat) (s : State) : (setOwner o s).rxDone = s.rxDone := rfl
@[simp] theorem setOwner_timing (o : Option Nat) (s : State) : (setOwner o s).timing = s.timing := rfl
@[simp] theorem setOwner_txBuf (o : Option Nat) (s : State) : (setOwner o s).txBuf = s.txBuf := rfl
@[simp] theorem setOwner_txLen (o : Option Nat) (s : State) : (setOwner o s).txLen = s.txLen := rfl
@[simp] theorem setOwner_rxBuf (o : Option Nat) (s : State) : (setOwner o s).rxBuf = s.rxBuf := rfl
@[simp] theorem setOwner_rxLen (o : Option Nat) (s : State) : (setOwner o s).rxLen = s.rxLen := rfl
@[simp] theorem setOwner_txInflight (o : Option Nat) (s : State) : (setOwner o s).txInflight = s.txInflight := rfl
@[simp] theorem setOwner_rxInflight (o : Option Nat) (s : State) : (setOwner o s).rxInflight = s.rxInflight := rfl
@[simp] theorem setOwner_lastDiscrepancy (o : Option Nat) (s : State) :
    (setOwner o s).lastDiscrepancy = s.lastDiscrepancy := rfl
@[simp] theorem setOwner_lastDeviceFlag (o : Option Nat) (s : State) :
    (setOwner o s).lastDeviceFlag = s.lastDeviceFlag := rfl
@[simp] theorem setOwner_lastRom (o : Option Nat) (s : State) : (setOwner o s).lastRom = s.lastRom := rfl
@[simp] theorem setOwner_rOk (o : Option Nat) (s : State) : (setOwner o s).rOk = s.rOk := rfl
@[simp] theorem setOwner_rBit (o : Option Nat) (s : State) : (setOwner o s).rBit = s.rBit := rfl
@[simp] theorem setOwner_rPresence (o : Option Nat) (s : State) : (setOwner o s).rPresence = s.rPresence := rfl
@[simp] theorem setOwner_rRom (o : Option Nat) (s : State) : (setOwner o s).rRom = s.rRom := rfl
@[simp] theorem setOwner_linkIn (o : Option Nat) (s : State) : (setOwner o s).linkIn = s.linkIn := rfl
@[simp] theorem setOwner_dataIn (o : Option Nat) (s : State) : (setOwner o s).dataIn = s.dataIn := rfl
@[simp] theorem setOwner_addrIn (o : Option Nat) (s : State) : (setOwner o s).addrIn = s.addrIn := rfl
@[simp] theorem setOwner_seq (o : Option Nat) (s : State) : (setOwner o s).seq = s.seq := rfl
@[simp] theorem setOwner_i (o : Option Nat) (s : State) : (setOwner o s).i = s.i := rfl
@[simp] theorem setOwner_lastZero (o : Option Nat) (s : State) : (setOwner o s).lastZero = s.lastZero := rfl
@[simp] theorem setOwner_romWork (o : Option Nat) (s : State) : (setOwner o s).romWork = s.romWork := rfl
@[simp] theorem setOwner_idB (o : Option Nat) (s : State) : (setOwner o s).idB = s.idB := rfl
@[simp] theorem setOwner_cmpB (o : Option Nat) (s : State) : (setOwner o s).cmpB = s.cmpB := rfl
@[simp] theorem setOwner_dir (o : Option Nat) (s : State) : (setOwner o s).dir = s.dir := rfl
@[simp] theorem setOwner_wire (o : Option Nat) (s : State) : (setOwner o s).wire = s.wire := rfl
@[simp] theorem setOwner_fault (o : Option Nat) (s : State) : (setOwner o s).fault = s.fault := rfl
@[simp] theorem setOwner_txPending (o : Option Nat) (s : State) : (setOwner o s).txPending = s.txPending := rfl
@[simp] theorem setOwner_rxPending (o : Option Nat) (s : State) : (setOwner o s).rxPending = s.rxPending := rfl
@[simp] theorem setOwner_program (o : Option Nat) (s : State) : (setOwner o s).program = s.program := rfl
@[simp] theorem setOwner_clients (o : Option Nat) (s : State) :
    (setOwner o s).clients = { s.clients with owner := o } := rfl
@[simp] theorem setOwner_bus (o : Option Nat) (s : State) : (setOwner o s).bus = s.bus := rfl
@[simp] theorem setOwner_turns (o : Option Nat) (s : State) : (setOwner o s).turns = s.turns := rfl
@[simp] theorem setOwner_params (o : Option Nat) (s : State) : (setOwner o s).params = s.params := rfl
@[simp] theorem setOwner_draws (o : Option Nat) (s : State) : (setOwner o s).draws = s.draws := rfl

theorem raise_fault (r : Reason) (s : State) : (raise r s).fault = some (s.fault.getD r) := by
  unfold raise
  cases s.fault <;> rfl

@[simp] theorem readSlots_txLen (n : Nat) (s : State) : (readSlots n s).txLen = n := by
  simp [readSlots]

@[simp] theorem readSlots_txInflight (n : Nat) (s : State) : (readSlots n s).txInflight = some n := by
  simp [readSlots]

end Sys2Proof.Laws
end

