-- ==== Sys2Proof/Tests/Slice0.lean ====
section
/-! SUPPORT. The model's own tests: the well-formedness smoke, decoding of words written out from the spec's
patterns, single steps with results from spec/95_test_vectors.md, and for every obligation with hypotheses a witness
that meets them. -/

namespace Sys2Proof.Tests

open Sys2Proof.Machine

/-! ## Small states -/

/-- The start state of vectors V23 to V29c: link 1 bound, both flags 1, data-rate timing. -/
def ready : State :=
  { State.reset with inited := true, boundLink := some 1, linkIn := some 1, timing := .dataRate }

/-- `FLAGS` = 0b10: a transmit outstanding. -/
def busy : State := { ready with txDone := false, txInflight := some 1, txLen := 1 }

/-- Reset-rate timing. -/
def slow : State := { ready with timing := .resetRate }

/-- A blocking command in this phase. -/
def inPhase (p : Phase) : State := { ready with seq := p }

/-- A reset exchange running in this phase, answered by this echo. -/
def inExchange (p : Phase) (e : Option Symbol) : State := { slow with seq := p, bus := .scripted [e] [] }

/-- Identity A of vector section 2.0. -/
def romA : Rom := #v[0x28, 0x01, 0x00, 0x00, 0x00, 0x00, 0x00, 0x29]

/-- One device in this state. -/
def device (st : DevState) : Device :=
  { address := romA, temperature := 0, lsb := 0xD0, msb := 0, presence := .timeout, state := st, lastConv := 100 }

/-- The host with that device, this owner and this tick. -/
def hosting (st : DevState) (owner : Option Nat) (now : Nat) (s : State) : State :=
  { s with clients := { s.clients with devices := [device st], owner := owner, now := now } }

/-- What a next state says of one thing. -/
def after {α : Type} (o : Result) (f : State → α) : Option α :=
  match o with
  | .next t => some (f t)
  | .fault _ => none
  | .refused _ => none

/-! ## Well-formedness smoke: an ill-formed term for each check (R107) -/

theorem test_wf_writeAddr_zero : (Instr.writeAddr 0).wf = false := by decide
theorem test_wf_writeAddr_nine : (Instr.writeAddr 9).wf = false := by decide
theorem test_wf_readIssue_zero : (Instr.readIssue 0).wf = false := by decide
theorem test_wf_readIssue_nine : (Instr.readIssue 9).wf = false := by decide
theorem test_wf_bounds : (Instr.writeAddr 1).wf = true ∧ (Instr.writeAddr 8).wf = true ∧
    (Instr.readIssue 1).wf = true ∧ (Instr.readIssue 8).wf = true := by decide

/-! ## Decoding (R96, R104; vectors V70 to V75) -/

theorem test_decode_init : decodeCommand 0b00010000#8 = .ok .init := by decide
theorem test_decode_writeBit : decodeCommand 0b00100000#8 = .ok (.writeBit false) ∧
    decodeCommand 0b00100001#8 = .ok (.writeBit true) := by decide
theorem test_decode_writeByte : decodeCommand 0b00110000#8 = .ok .writeByte := by decide
theorem test_decode_writeAddr : decodeCommand 0b01000001#8 = .ok (.writeAddr 1) ∧
    decodeCommand 0b01001000#8 = .ok (.writeAddr 8) := by decide
theorem test_decode_readIssue : decodeCommand 0b01010001#8 = .ok (.readIssue 1) ∧
    decodeCommand 0b01011000#8 = .ok (.readIssue 8) := by decide
theorem test_decode_readBit : decodeCommand 0b01100000#8 = .ok .readBit := by decide
theorem test_decode_reset : decodeCommand 0b01110000#8 = .ok .reset := by decide
theorem test_decode_searchNext : decodeCommand 0b10000000#8 = .ok .searchNext := by decide
/-- R104: link identity 5 in bits 8..1, the selector in bit 0. -/
theorem test_decode_rxComplete : decodeEvent 0b000001010#9 = .rxComplete 5 := by decide
theorem test_decode_txComplete : decodeEvent 0b000001011#9 = .txComplete 5 := by decide
/-- V70. -/
theorem test_decode_reserved_opcode : ∀ w ∈ [0x00#8, 0x0F#8, 0x90#8, 0xA0#8, 0xFF#8],
    decodeCommand w = .error .reservedOpcode := by decide
/-- V71 to V73. -/
theorem test_decode_reserved_immediate :
    ∀ w ∈ [0x11#8, 0x31#8, 0x6F#8, 0x71#8, 0x88#8, 0x22#8, 0x23#8, 0x28#8, 0x40#8, 0x49#8, 0x4F#8, 0x50#8, 0x59#8],
      decodeCommand w = .error .reservedImmediate := by decide

/-! ## The symbol code, the bit order and the tie-break -/

/-- V16. -/
theorem test_encode_byte : encodeByte defaultParams 0xF0 = [0, 0, 0, 0, 0xFF, 0xFF, 0xFF, 0xFF] := by decide
/-- V20. -/
theorem test_rx_byte : rxByteOf { ready with rxBuf := #v[0xFE, 0xFE, 0xFE, 0xFE, 0xFF, 0xFE, 0xFF, 0xFF] } = 0xD0 := by
  decide +kernel
/-- V21. -/
theorem test_id_bit : [1, 4, 6, 9, 10, 57, 60, 62, 64].map (idBit romA) =
    [false, true, true, true, false, true, true, true, false] := by decide +kernel
/-- V22. -/
theorem test_set_id_bit : setIdBit (setIdBit (setIdBit zeroRom 4 true) 6 true) 10 true =
    #v[0x28, 0x02, 0, 0, 0, 0, 0, 0] := by decide +kernel
/-- V50, V52, V53, V55, V58. -/
theorem test_choose_dir : chooseDir 1 0 true = false ∧ chooseDir 9 9 false = true ∧ chooseDir 10 9 true = false ∧
    chooseDir 8 9 true = true ∧ chooseDir 1 1 false = true := by decide
/-- V1, V2, in sixteenths. -/
theorem test_temperature : decodeTemperature 0x07 0xD0 = 2000 ∧ decodeTemperature 0xFF 0xF8 = -8 := by decide

/-! ## Instructions, one step each -/

/-- V60. -/
theorem test_init : after (exec .init { State.reset with linkIn := some 1 })
    (fun t => (t.inited, t.boundLink, t.lastDiscrepancy, t.rPresence, flagsOf t)) =
    some (true, some 1, 0, .timeout, 0b11) := by decide
/-- V62. -/
theorem test_init_busy : after (exec .init busy) (fun t => (t.fault, t.inited)) =
    some (some .initWhileBusy, true) := by decide
/-- V23. -/
theorem test_writeBit : after (exec (.writeBit false) ready)
    (fun t => (t.txBuf[0], t.txLen, t.txInflight, flagsOf t)) = some (0x00, 1, some 1, 0b10) := by decide +kernel
/-- V39b's reason, on a data transfer: `FLAGS` = 0b10. -/
theorem test_writeBit_busy : after (exec (.writeBit true) busy) (fun t => (t.fault, t.txInflight)) =
    some (some .transportBusy, some 1) := by decide
/-- V25. -/
theorem test_writeByte : after (exec .writeByte { ready with dataIn := some 0xCC })
    (fun t => (t.txBuf.toList.take 8, t.txLen, flagsOf t)) =
    some ([0, 0, 0xFF, 0xFF, 0, 0, 0xFF, 0xFF], 8, 0b10) := by decide +kernel
/-- V81: busy is reported before the timing. -/
theorem test_writeByte_order : after (exec .writeByte { busy with dataIn := some 0xCC, timing := .resetRate })
    (fun t => t.fault) = some (some .transportBusy) := by decide
/-- V26. -/
theorem test_writeAddr : after (exec (.writeAddr 2)
      { ready with addrIn := #v[some 0x28, some 0x01, none, none, none, none, none, none] })
    (fun t => (t.txBuf.toList.take 16, t.txInflight)) =
    some ([0, 0, 0, 0xFF, 0, 0xFF, 0, 0, 0xFF, 0, 0, 0, 0, 0, 0, 0], some 16) := by decide +kernel
/-- R108: the third byte was never written. -/
theorem test_writeAddr_unwritten : after (exec (.writeAddr 3)
      { ready with addrIn := #v[some 0x28, some 0x01, none, none, none, none, none, none] })
    (fun t => (t.fault, flagsOf t)) = some (some .operandUnwritten, 0b11) := by decide
/-- V28, at issue. -/
theorem test_readIssue : after (exec (.readIssue 1) ready)
    (fun t => (t.txBuf[0], t.txLen, t.rxLen, flagsOf t)) = some (0xFF, 1, 1, 0b00) := by decide +kernel
/-- R126. -/
theorem test_readIssue_slow : after (exec (.readIssue 1) slow) (fun t => (t.fault, t.rxInflight)) =
    some (some .timingViolation, none) := by decide
/-- V29a, the first step; and V29b, the last. -/
theorem test_readBit : after (exec .readBit ready) (fun t => (t.seq, flagsOf t)) = some (.rbWait, 0b00) := by
  decide +kernel
theorem test_readBit_return :
    (phaseStep { inPhase .rbWait with rxBuf := #v[0xFC, 0, 0, 0, 0, 0, 0, 0], rxLen := 1, rBit := true }).rBit = false ∧
    (phaseStep { inPhase .rbWait with rxDone := false }).seq = .rbWait := by decide
/-- V46. -/
theorem test_reset_busy : after (exec .reset busy) (fun t => (t.fault, t.timing)) =
    some (some .transportBusy, .dataRate) := by decide
/-- V40 to V42 and V44. -/
theorem test_reset_outcomes : [some 0xE0#8, some 0xF0#8, none, some 0xF8#8].map (fun e =>
      let t := phaseStep (inExchange .rsWait e)
      (t.rPresence, t.timing, t.seq)) =
    [(.ok, .dataRate, .idle), (.noChange, .resetRate, .idle), (.timeout, .resetRate, .idle),
     (.ok, .dataRate, .idle)] := by decide
/-- V38b: absence after exhaustion restarts the enumeration. -/
theorem test_searchNext_absence :
    let t := phaseStep { inExchange .sReset none with lastDeviceFlag := true }
    (t.rOk, t.rPresence, t.lastDeviceFlag, t.seq) = (false, .timeout, false, .idle) := by decide
/-- V31, index 9 at `ld` = 9: direction 1; the identity bit is bit 0 of byte 1. -/
theorem test_searchNext_at :
    let t := phaseStep { inPhase .sDecide with i := 9, lastDiscrepancy := 9 }
    (t.dir, t.lastZero, t.romWork[1], t.seq) = (true, 0, 1, .sDir) := by decide +kernel
/-- V63, V65. -/
theorem test_rxComplete : after (exec (.rxComplete 1) { ready with txDone := false, rxDone := false }) flagsOf =
      some 0b10 ∧
    after (exec (.rxComplete 2) { ready with txDone := false, rxDone := false }) flagsOf = some 0b00 := by decide
/-- V64, V67. -/
theorem test_txComplete : after (exec (.txComplete 1) { ready with txDone := false, rxDone := false }) flagsOf =
      some 0b01 ∧
    after (exec (.txComplete 1) State.reset) (fun t => (t.inited, t.fault)) = some (false, none) := by decide

/-! ## The host clients, one step each -/

/-- V9: one tick below the wait, and at it. -/
theorem test_wait_conversion :
    after (hostOp (.poll 0) (hosting .waitConversion none 849 ready)) (fun t => t.clients.devices.map (·.state)) =
      some [.waitConversion] ∧
    after (hostOp (.poll 0) (hosting .waitConversion none 850 ready)) (fun t => t.clients.devices.map (·.state)) =
      some [.reset2] := by decide
/-- V7. -/
theorem test_measure_idempotent :
    after (hostOp (.measure 0) (hosting .read none 0 ready)) (fun t => t.clients) =
      some (hosting .read none 0 ready).clients := by decide
/-- R241, with V1's bytes: the conversion ends, and the bus is released. -/
theorem test_calculate :
    after (hostOp (.poll 0) (hosting .calculate (some 0) 0
        { ready with rxLen := 8, rxBuf := #v[0xFF, 0xFF, 0xFF, 0xFE, 0xFE, 0xFE, 0xFE, 0xFE] }))
      (fun t => (t.clients.owner, t.clients.devices.map fun x => (x.state, x.temperature))) =
      some (none, [(.idle, 2000)]) := by decide +kernel
/-- R237, R239: `StartConversion` writes first, and records the start and releases the bus after it. -/
theorem test_start_conversion :
    after (hostOp (.poll 0) (hosting .startConversion (some 0) 700 ready))
        (fun t => (t.program, t.clients.owner, t.clients.devices)) =
      some ([.setDataIn 0x44, .command 0x30, .pollConvertDone 0], some 0, [device .startConversion]) ∧
    after (hostOp (.pollConvertDone 0) (hosting .startConversion (some 0) 701 ready))
        (fun t => (t.clients.owner, t.clients.devices)) =
      some (none, [{ device .waitConversion with lastConv := 701 }]) := by decide

/-- R235: a new Device Context is `Idle`, and `Measure` acts on it (R233). -/
theorem test_new_device : after (hostOp .newDevice State.reset) (fun t => t.clients.devices.map (·.state)) =
      some [.idle] ∧
    after (hostOp (.measure 0) (newDeviceOp State.reset)) (fun t => t.clients.devices.map (·.state)) =
      some [.waitAccess] := by decide

/-- R231, R246: a routine's failed reset is copied into the device, and its `rest` operations are dropped. -/
theorem test_need_presence :
    after (hostOp (.needPresence 0 1) { hosting .idle none 0 ready with
        rPresence := .noChange, program := [.waitIdle, .newDevice] })
      (fun t => (t.clients.devices.map (·.presence), t.program, t.clients.ret)) =
      some ([.noChange], [.newDevice], some false) := by decide

/-- R219, U4: the host's calls before `INIT` read no result; the reads are refused and set the mark. -/
theorem test_refused_results :
    after (hostOp (.searchNextDone 0) (hosting .idle none 0 State.reset))
      (fun t => (t.fault, t.clients.ret, t.clients.devices)) = some (some .notInitialised, none, [device .idle]) ∧
    after (hostOp .copyLoop State.reset) (fun t => (t.fault, t.program)) = some (some .notInitialised, []) := by decide

/-- V69: `RX_BYTE` of one symbol faults, `RX_BIT` is valid. -/
theorem test_views :
    readView .rxByte { ready with rxLen := 1 } = .error .rxViewInvalid ∧
    readView .rxBit { ready with rxLen := 1 } = .ok (.bit false) := by decide

/-! ## Witnesses: for each obligation with hypotheses, a state and operands that meet them, clause by clause -/

theorem test_hyp_decode_encode : (Instr.writeAddr 8).wf = true ∧ (Instr.readIssue 1).wf = true ∧
    (Instr.txComplete 0xFF).wf = true := by decide

theorem test_hyp_one_meaning : decode (.cmd 0x48) = .ok (.writeAddr 8) ∧
    decode (.evt 0x1FF) = .ok (.txComplete 0xFF) := by decide

theorem test_hyp_reserved : reservedWord 0x0F = true ∧ reservedWord 0x90 = true ∧ reservedWord 0x40 = true ∧
    reservedWord 0x49 = true ∧ reservedWord 0x22 = true ∧ reservedWord 0x48 = false ∧ reservedWord 0x80 = false ∧
    ready.seq = .idle := by decide

theorem test_hyp_presented : ready.seq = .idle ∧
    ({ ready with turns := [.polling], program := [.command 0x48] } : State).turns = [.polling] ∧
    ({ ready with turns := [.polling], program := [.command 0x48] } : State).program = [.command 0x48] ∧
    decodeCommand 0x48 = .ok (.writeAddr 8) := by decide

theorem test_hyp_blocked : (inPhase .rbWait).seq ≠ .idle ∧
    ({ inPhase .rbWait with turns := [.polling] } : State).turns = [.polling] := by decide

/-- The four clauses of `StepDeliversEvents`; the last two at the edge of the link's contract. -/
theorem test_hyp_events : ({ busy with txPending := some 1 } : State).txPending = some 1 ∧
    ({ ready with rxPending := some 1 } : State).rxPending = some 1 ∧
    eventAllowed 0b000000011 ready = true ∧ eventAllowed 0b000000101 busy = true ∧
    eventAllowed 0b000000010 busy = true ∧ eventAllowed 0b000000011 busy = false := by decide

theorem test_hyp_placed : decodeTableWord 8 0x10 = some .init ∧ decodeTableWord 8 0x58 = some (.readIssue 8) ∧
    decodeTableWord 9 0x003 = some (.txComplete 1) ∧ decodeTableWord 9 0x1FE = some (.rxComplete 0xFF) ∧
    decodeTableWord 8 0x00 = some (.rxComplete 0) ∧ decodeTableWord 8 0x01 = some (.txComplete 0) := by decide

theorem test_hyp_init : State.reset.seq = .idle ∧ State.reset.linkIn = none ∧
    (busy.linkIn.isSome = true ∧ busy.inited = true ∧ isIdle busy = false) ∧
    (ready.linkIn = some 1 ∧ isIdle ready = true) ∧
    (({ State.reset with linkIn := some 1 } : State).linkIn = some 1 ∧ State.reset.inited = false) := by decide

/-- The cases of a data transfer command, in the order of its checks. -/
theorem test_hyp_data_command : State.reset.seq = .idle ∧ State.reset.inited = false ∧
    (busy.seq = .idle ∧ busy.inited = true ∧ isIdle busy = false) ∧
    (slow.seq = .idle ∧ slow.inited = true ∧ isIdle slow = true ∧ slow.timing = .resetRate) := by decide

theorem test_hyp_ready : ReadyForData ready := by
  refine ⟨?_, ?_, ?_, ?_, ?_⟩ <;> rfl

theorem test_hyp_writeByte : ready.dataIn = none ∧
    ({ busy with dataIn := some 0xFF } : State).dataIn.isSome = true ∧
    ({ ready with dataIn := some 0 } : State).dataIn = some 0 := by decide

/-- Counts at both ends; a byte below the count not written; all eight written. -/
theorem test_hyp_writeAddr : (∃ j, j < 8 ∧ ready.addrIn[j]? = some none) ∧
    (∀ j, j < 8 → ({ ready with addrIn := Vector.replicate 8 (some 0xFF) } : State).addrIn[j]? =
      some (some ((fun _ => 0xFF#8) j))) ∧
    (∀ j, j < 1 → ({ ready with addrIn := Vector.replicate 8 (some 0) } : State).addrIn[j]? =
      some (some ((fun _ => 0#8) j))) :=
  ⟨⟨7, by decide⟩, by decide, by decide⟩

theorem test_hyp_readBit_return : (inPhase .rbWait).seq = .rbWait ∧
    ({ inPhase .rbWait with rxDone := false } : State).rxDone = false ∧ (inPhase .rbWait).rxDone = true ∧
    (inPhase .rbWait).rxBuf[0]? = some 0x00#8 := by decide

theorem test_hyp_events_match : ready.inited = true ∧ ready.boundLink = some 1 ∧ ready.boundLink ≠ some 2 ∧
    State.reset.inited = false := by decide

theorem test_hyp_running : (inPhase .sFinish).seq ≠ .idle ∧ Instr.isCommand .init = true ∧
    Instr.isCommand (.rxComplete 0) = false := by decide

/-- The three answers of a reset exchange, in both commands that make one. -/
theorem test_hyp_exchange : ∀ p ∈ [Phase.rsWait, .sReset], ∀ e ∈ [none, some 0xF0#8, some 0xF8#8],
    (inExchange p e).seq = p ∧
      busResetEcho (inExchange p e).params (inExchange p e).bus (inExchange p e).wire = (e, .scripted [] []) := by
  decide +kernel

theorem test_hyp_exchange_symbols : (inExchange .sReset (some 0xF8)).params.symReset = 0xF0#8 ∧
    (inExchange .sReset (some 0xF8)).lastDeviceFlag = false ∧
    ({ inExchange .sReset (some 0xF8) with lastDeviceFlag := true } : State).lastDeviceFlag = true := by decide

/-- A whole `RESET` from reset-rate timing. -/
theorem test_hyp_reset_run :
    let s := { inExchange .idle (some 0xE0) with turns := [.polling, .polling], program := [.command 0x70] }
    s.seq = .idle ∧ s.inited = true ∧ isIdle s = true ∧
      busResetEcho s.params s.bus s.wire = (some 0xE0#8, .scripted [] []) ∧
      s.turns = [.polling, .polling] ∧ s.program = [.command 0x70] := by decide

theorem test_hyp_linkTx : ({ busy with turns := [.linkTx], txInflight := some 64 } : State).turns = [.linkTx] ∧
    ({ busy with txInflight := some 64 } : State).txInflight = some 64 ∧ ready.txInflight = none := by decide

theorem test_hyp_linkRx : ({ ready with turns := [.linkRx], rxInflight := some 8 } : State).turns = [.linkRx] ∧
    ({ ready with rxInflight := some 8 } : State).rxInflight = some 8 ∧ ready.rxInflight = none := by decide

theorem test_hyp_both_pending :
    ({ ready with txPending := some 1, rxPending := some 1 } : State).txPending = some 1 ∧
    ({ ready with txPending := some 1, rxPending := some 1 } : State).rxPending = some 1 := by decide

theorem test_hyp_readBit_run :
    let s := { ready with
      bus := .scripted [] [0xFF], turns := [.polling, .linkRx, .rxEvent, .polling], program := [.command 0x60] }
    s.seq = .idle ∧ s.inited = true ∧ s.txDone = true ∧ s.rxDone = true ∧ s.timing = .dataRate ∧
      s.boundLink = some 1 ∧ s.bus = .scripted [] [0xFF] ∧
      s.turns = [.polling, .linkRx, .rxEvent, .polling] ∧ s.program = [.command 0x60] := by decide

/-- The phases that issue a transfer, held and free; the phases that take a bit, held and free. -/
theorem test_hyp_search_phases : (∀ p ∈ [Phase.sCmd, .sIdIssue, .sCmpIssue, .sDir],
      (inPhase p).seq = p ∧ isIdle (inPhase p) = true ∧ (inPhase p).timing = .dataRate ∧
        isIdle { busy with seq := p } = false) ∧
    (∀ p ∈ [Phase.sIdRx, .sCmpRx], (inPhase p).rxDone = true ∧ (inPhase p).rxBuf[0]? = some 0x00#8 ∧
      ({ inPhase p with rxDone := false } : State).rxDone = false) := by decide

theorem test_hyp_conflict : ({ inPhase .sDecide with idB := true, cmpB := true } : State).idB = true ∧
    ({ inPhase .sDecide with idB := true, cmpB := true } : State).cmpB = true := by decide

/-- A discrepancy above and at `last_discrepancy` at index 64, below and at it at index 1. -/
theorem test_hyp_direction : ∀ q ∈ [(64, 0), (64, 64), (1, 64), (1, 1)],
    let s := { inPhase .sDecide with i := q.1, lastDiscrepancy := q.2 }
    s.seq = .sDecide ∧ ¬(s.idB = true ∧ s.cmpB = true) ∧ 1 ≤ s.i ∧ s.i ≤ 64 := by decide

theorem test_hyp_direction_common : let s := { inPhase .sDecide with i := 64, idB := true }
    s.idB ≠ s.cmpB ∧ ¬(s.idB = true ∧ s.cmpB = true) := by decide

theorem test_hyp_finish : (inPhase .sFinish).seq = .sFinish ∧ (inPhase .sFinish).lastZero = 0 ∧
    ({ inPhase .sFinish with lastZero := 64 } : State).lastZero ≠ 0 := by decide

theorem test_hyp_identity_bit : idBit (setIdBit romA 64 true) 64 = true ∧ idBit (setIdBit romA 64 true) 1 = false ∧
    idBit (setIdBit romA 1 true) 1 = true := by decide +kernel

/-- The hypotheses of a whole pass, over 64 pairs of a lone device that answers 0 everywhere. -/
theorem test_hyp_search_run :
    let pairs := List.replicate 64 (false, true)
    let s := { ready with
      bus := .scripted [some 0xE0] (pairSymbols defaultParams pairs), program := [.command 0x80], turns := searchTurns }
    paramsOk s.params = true ∧ s.seq = .idle ∧ s.inited = true ∧ isIdle s = true ∧ s.boundLink = some 1 ∧
      s.lastDeviceFlag = false ∧ 0xE0#8 ≠ s.params.symReset ∧ pairs.length = 64 ∧
      s.bus = .scripted [some 0xE0] (pairSymbols s.params pairs ++ []) ∧ s.program = [.command 0x80] ∧
      s.turns = searchTurns ++ [] :=
  ⟨by decide, rfl, rfl, rfl, rfl, rfl, by decide, rfl, by rw [List.append_nil]; rfl, rfl, by rw [List.append_nil]⟩

theorem test_hyp_search_on_bus :
    let s := { ready with bus := .wiredAnd [romA], program := [.command 0x80], turns := searchTurns }
    paramsOk s.params = true ∧ s.seq = .idle ∧ s.inited = true ∧ isIdle s = true ∧ s.boundLink = some 1 ∧
      s.lastDeviceFlag = false ∧ s.params.symReset ≠ 0xE0#8 ∧ [romA] ≠ [] ∧ s.bus = .wiredAnd [romA] ∧
      s.program = [.command 0x80] ∧ s.turns = searchTurns ++ [] :=
  ⟨by decide, rfl, rfl, rfl, rfl, rfl, by decide, by decide, rfl, rfl, by rw [List.append_nil]⟩

/-- The views, invalid and valid, at the lengths where they change. -/
theorem test_hyp_views : State.reset.inited = false ∧ ready.inited = true ∧
    ({ ready with rxDone := false } : State).rxDone = false ∧ ready.rxLen = 0 ∧
    (({ ready with rxLen := 8 } : State).rxDone = true ∧ ({ ready with rxLen := 8 } : State).rxLen = 8) ∧
    (1 ≤ ({ ready with rxLen := 1 } : State).rxLen ∧ ({ ready with rxLen := 1 } : State).rxBuf[0]? = some 0x00#8) ∧
    ({ ready with rxLen := 7 } : State).rxLen ≠ 8 := by decide

theorem test_hyp_rx_byte :
    let s := { ready with rxLen := 8, rxBuf := #v[0xFF, 0, 0, 0, 0, 0, 0, 0xFF] }
    paramsOk s.params = true ∧ s.inited = true ∧ s.rxDone = true ∧ s.rxLen = 8 ∧
      s.rxBuf.toList = encodeByte s.params 0x81 := by decide

theorem test_hyp_power_on : Instr.isCommand .searchNext = true ∧ Instr.wf (.writeAddr 8) = true ∧
    Instr.searchNext ≠ .init := by decide

/-- The invariant at a state with a transfer in flight inside a search. -/
def searching : State :=
  { inPhase .sDir with i := 64, rxLen := 1, txDone := false, txInflight := some 1, txLen := 1, turns := [.linkTx] }

theorem test_hyp_invariant : StateInv searching ∧ searching.seq ≠ .idle ∧ searching.txDone = false := by
  refine ⟨?_, by decide, rfl⟩
  constructor <;> decide

theorem test_hyp_step : ∃ t, step searching = .next t := ⟨_, rfl⟩

theorem test_hyp_mark : ∃ t, step { searching with fault := some .transportBusy } = .next t := ⟨_, rfl⟩

theorem test_hyp_event_turn : ∀ tn ∈ [Turn.txEvent, .rxEvent, .event 3],
    ({ ready with turns := [tn] } : State).turns = [tn] := by decide

/-- A step that changes `timing`, one that changes the search state, one that issues a transfer, one that leaves
`RB_WAIT`. -/
theorem test_hyp_timing : after (step { ready with turns := [.polling], program := [.command 0x70] })
    (fun t => t.timing) = some .resetRate ∧ ready.timing = .dataRate := by decide

theorem test_hyp_search_state : after (step { inPhase .sFinish with lastDiscrepancy := 9, turns := [.polling] })
    (fun t => t.lastDiscrepancy) = some 0 := by decide

theorem test_hyp_issue : ready.txInflight = none ∧ ready.rxInflight = none ∧
    after (step { ready with turns := [.polling], program := [.command 0x51] })
      (fun t => (t.txInflight, t.rxInflight)) = some (some 1, some 1) := by decide +kernel

theorem test_hyp_readBit_leaves : after (step { inPhase .rbWait with turns := [.polling] }) (fun t => t.seq) =
    some .idle := by decide

/-- Devices in each state the statements speak of, with the owner another device, none, or this one. -/
theorem test_hyp_devices : ∀ st ∈ [DevState.idle, .reset, .reset2, .waitConversion, .calculate, .error],
    (hosting st (some 1) 850 ready).clients.devices[0]? = some (device st) ∧
      (hosting st (some 1) 850 ready).clients.owner = some 1 := by decide

theorem test_hyp_poll_stays : ∀ st ∈ [DevState.reset, .matchRom, .sendAddress, .startConversion, .reset2, .matchRom2,
      .sendAddress2, .read, .readLsb, .readMsb],
    (hosting st none 0 busy).clients.devices[0]? = some (device st) ∧ isIdle (hosting st none 0 busy) = false ∧
      (hosting st none 0 busy).inited = true := by decide

/-- One tick below the wait of 750, and at it. -/
theorem test_hyp_conversion :
    849 - (device .waitConversion).lastConv < ready.params.convTicks ∧
    ready.params.convTicks ≤ 850 - (device .waitConversion).lastConv ∧ (device .waitConversion).lastConv ≤ 849 := by
  decide

theorem test_hyp_reset_outcome : ({ ready with rPresence := .ok } : State).rPresence = .ok ∧
    ready.rPresence ≠ .ok := by decide

/-- Both outcomes of a routine's reset, before and after `INIT`. -/
theorem test_hyp_admin : ready.rPresence ≠ .ok ∧ ({ ready with rPresence := .ok } : State).rPresence = .ok ∧
    (hosting .idle none 0 ready).clients.devices[0]? = some (device .idle) ∧
    (hosting .reset none 0 State.reset).clients.devices[0]? = some (device .reset) ∧
    (hosting .reset none 0 State.reset).inited = false := by decide

/-- A read with a value, one refused, and one that faults. -/
theorem test_hyp_status : readView .rOk ready = .ok (.bit false) ∧ readView .rOk State.reset = .error .notInitialised ∧
    readView .rxByte ready = .error .rxViewInvalid := by decide

theorem test_hyp_wait_idle :
    let s := { ready with turns := [.polling], program := [.waitIdle] }
    s.seq = .idle ∧ s.inited = true ∧ s.turns = [.polling] ∧ s.program = [.waitIdle] := by decide

/-! ## The assembler -/

/-- R110: `WRITE_ADDR 2, 0x28, 0x0E` is two operand writes and the word `0x42` (R96). -/
theorem test_asm_write_addr :
    lineOps (.writeAddr [0x28#8, 0x0E#8]) =
      some [.setAddrIn 0 0x28#8, .setAddrIn 1 0x0E#8, .command 0x42#8] := by decide

/-- R110, R111: `WRITE_ROM` is `WRITE_ADDR 8` of its bytes, and `READ_BYTE` is `READ_ISSUE 8`, a wait and a read. -/
theorem test_asm_pseudo :
    lineOps (.writeRom zeroRom) = lineOps (.writeAddr (List.replicate 8 0#8)) ∧
    assemble [.readByte] = assemble [.readIssue 8, .waitIdle, .read .rxByte] := by decide

/-- Log entry 34: no word holds a count of 16, and the reserved count 15 has the word the block refuses (R107). -/
theorem test_asm_count : assemble [.readIssue 15, .readIssue 16] = none ∧
    lineOps (.readIssue 15) = some [.command 0x5F#8] ∧ reservedWord 0x5F = true := by decide

end Sys2Proof.Tests
end

section
/-! SUPPORT. What a move of the machine can do, said once for the statements of 10_state.md: the sequencer's phases
(R40, R186), the moves of the agents (R10, R45), and the step as one of them. -/

namespace Sys2Proof.Proofs

open Sys2Proof.Machine Sys2Proof.Laws

/-- The next states of one phase of the sequencer, each with the phase it leaves and what it waited for. -/
inductive PhaseMove (s : State) : State → Prop
  | hold : PhaseMove s s
  | bitRead (hs : s.seq = .rbWait) (hr : s.rxDone = true) :
      PhaseMove s { s with rBit := decodeSym s.params s.rxBuf[0], seq := .idle }
  | resetAnswered (hs : s.seq = .rsWait) : PhaseMove s { finishReset s with seq := .idle }
  | searchAbsent (hs : s.seq = .sReset) :
      PhaseMove s (searchFalse { restartSearch (finishReset s) with
        rRom := resultRomFree (finishReset s).draws, draws := (finishReset s).draws + 1 })
  | searchExhausted (hs : s.seq = .sReset) : PhaseMove s (searchFalse (finishReset s))
  | searchPresent (hs : s.seq = .sReset) (ho : resetOutcome s = .ok) (hd : s.lastDeviceFlag = false) :
      PhaseMove s { finishReset s with seq := .sCmd }
  | searchCommand (hs : s.seq = .sCmd) (hf : isIdle s = true) :
      PhaseMove s { sendSymbols (encodeByte s.params s.params.cmdSearchRom) s with
        i := 1, lastZero := 0, seq := .sIdIssue }
  | idSlot (hs : s.seq = .sIdIssue) (hf : isIdle s = true) : PhaseMove s { readSlots 1 s with seq := .sIdRx }
  | idLatched (hs : s.seq = .sIdRx) (hr : s.rxDone = true) :
      PhaseMove s { s with idB := decodeSym s.params s.rxBuf[0], seq := .sCmpIssue }
  | cmpSlot (hs : s.seq = .sCmpIssue) (hf : isIdle s = true) : PhaseMove s { readSlots 1 s with seq := .sCmpRx }
  | cmpLatched (hs : s.seq = .sCmpRx) (hr : s.rxDone = true) :
      PhaseMove s { s with cmpB := decodeSym s.params s.rxBuf[0], seq := .sDecide }
  | conflict (hs : s.seq = .sDecide) :
      PhaseMove s (searchFalse { restartSearch s with
        lastRom := lastRomFree s.draws, rRom := resultRomFree s.draws, draws := s.draws + 1 })
  | decided (hs : s.seq = .sDecide) :
      PhaseMove s { s with
        dir := direction s, lastZero := nextLastZero s
        romWork := setIdBit s.romWork s.i (direction s), seq := .sDir }
  | writeBack (hs : s.seq = .sDir) (hf : isIdle s = true) :
      PhaseMove s { sendSymbols [encodeBit s.params s.dir] s with
        i := if s.i < 64 then s.i + 1 else s.i, seq := if s.i < 64 then .sIdIssue else .sFinish }
  | timingViolated (hs : inSearch s.seq = true) (ht : s.timing ≠ .dataRate) :
      PhaseMove s { raise .timingViolation s with seq := .idle }
  | finished (hs : s.seq = .sFinish) : PhaseMove s (sFinishPhase s)

/-- A transfer inside the search holds, issues, or ends the search; only its issue is particular to the phase. -/
theorem phaseMove_searchIssue {body : State → State} {next : Phase} {s : State} (hs : inSearch s.seq = true)
    (hissue : isIdle s = true → PhaseMove s { body s with seq := next }) :
    PhaseMove s (searchIssue body next s) := by
  obtain ⟨_, h⟩ | ⟨hf, _, h⟩ | ⟨_, ht, h⟩ := searchIssue_cases body next s <;> rw [h]
  · exact .hold
  · exact hissue hf
  · exact .timingViolated hs ht

theorem phaseMove_sResetPhase {s : State} (hs : s.seq = .sReset) : PhaseMove s (sResetPhase s) := by
  unfold sResetPhase
  dsimp only
  split
  next ho =>
    split
    · exact .searchExhausted hs
    next hd => exact .searchPresent hs ho (by simpa using hd)
  · exact .searchAbsent hs

/-- Every phase step is one of these moves. -/
theorem phaseMove_phaseStep (s : State) : PhaseMove s (phaseStep s) := by
  unfold phaseStep
  split
  next => exact .hold
  next hs =>
    unfold readBitPhase
    split
    next hr => exact .bitRead hs hr
    · exact .hold
  next hs => exact .resetAnswered hs
  next hs => exact phaseMove_sResetPhase hs
  next hs => exact phaseMove_searchIssue (by rw [hs]; rfl) (.searchCommand hs)
  next hs => exact phaseMove_searchIssue (by rw [hs]; rfl) (.idSlot hs)
  next hs =>
    unfold sIdRxPhase
    split
    next hr => exact .idLatched hs hr
    · exact .hold
  next hs => exact phaseMove_searchIssue (by rw [hs]; rfl) (.cmpSlot hs)
  next hs =>
    unfold sCmpRxPhase
    split
    next hr => exact .cmpLatched hs hr
    · exact .hold
  next hs =>
    unfold sDecidePhase
    split
    · exact .conflict hs
    · exact .decided hs
  next hs => exact phaseMove_searchIssue (by rw [hs]; rfl) (.writeBack hs)
  next hs => exact .finished hs

/-- The next states of one move of an agent. A move that has nothing to do, a tick and a host operation that presents
no command are all within the host's frame. -/
inductive Move (s : State) : State → Prop
  | host {t : State} (h : HostFrame s t) : Move s t
  | command {t : State} {i : Instr} {w : Byte} {ops : List HostOp} (hs : s.seq = .idle)
      (hp : s.program = .command w :: ops) (hd : decodeCommand w = .ok i)
      (h : FirstStep { s with program := ops } i t) : Move s t
  | phase {t : State} (hs : s.seq ≠ .idle) (h : PhaseMove s t) : Move s t
  | sent {k : Nat} (hk : s.txInflight = some k) : Move s (linkTxStep s)
  | landed {n : Nat} (hn : s.rxInflight = some n) : Move s (linkRxStep s)
  | txDelivered {link : Link} (hl : s.txPending = some link) :
      Move s { s with txPending := none, txDone := s.txDone || linkMatches link s }
  | rxDelivered {link : Link} (hl : s.rxPending = some link) :
      Move s { s with rxPending := none, rxDone := s.rxDone || linkMatches link s }
  | txWord {w : EvtWord} (hb : w.getLsbD 0 = true) (ha : eventAllowed w s = true) :
      Move s { s with txDone := s.txDone || linkMatches (evtLink w) s }
  | rxWord {w : EvtWord} (hb : w.getLsbD 0 = false) (ha : eventAllowed w s = true) :
      Move s { s with rxDone := s.rxDone || linkMatches (evtLink w) s }

theorem move_hostStep {s t : State} (hs : s.seq = .idle) (h : hostStep s = .next t) : Move s t := by
  obtain ⟨w, ops, hp, hw⟩ | hf := hostStep_cases s t h
  · obtain ⟨_, rfl | ⟨i, hd, _, hi⟩⟩ := presentCommand_cases w _ t hw
    · have htaken : HostFrame s { s with program := ops } := ⟨rfl, fun _ h => h⟩
      exact .host (htaken.trans (hostFrame_raise _ _))
    · exact .command hs hp hd hi
  · exact .host hf

theorem move_linkTxStep (s : State) : Move s (linkTxStep s) := by
  cases hk : s.txInflight with
  | none =>
    have h : linkTxStep s = s := by simp only [linkTxStep, hk]
    rw [h]
    exact .host (.refl s)
  | some k => exact .sent hk

theorem move_linkRxStep (s : State) : Move s (linkRxStep s) := by
  cases hn : s.rxInflight with
  | none =>
    have h : linkRxStep s = s := by simp only [linkRxStep, hn]
    rw [h]
    exact .host (.refl s)
  | some n => exact .landed hn

theorem move_deliverTx {s t : State} (h : deliverTx s = .next t) : Move s t := by
  rw [deliverTx_eq] at h
  cases h
  split
  · exact .host (.refl s)
  next hl => exact .txDelivered hl

theorem move_deliverRx {s t : State} (h : deliverRx s = .next t) : Move s t := by
  rw [deliverRx_eq] at h
  cases h
  split
  · exact .host (.refl s)
  next hl => exact .rxDelivered hl

theorem move_deliverEvent {w : EvtWord} {s t : State} (h : deliverEvent w s = .next t) : Move s t := by
  rw [deliverEvent_eq] at h
  cases h
  split
  next ha =>
    split
    next hb => exact .txWord hb ha
    next hb => exact .rxWord (by simpa using hb) ha
  · exact .host (.refl s)

/-- Every step is one move on the state with its turn taken, which differs in the schedule and the counter of free
values alone. -/
theorem step_move {s t : State} (h : step s = .next t) :
    ∃ ts n, Move { s with turns := ts, draws := n } t := by
  obtain ⟨u, hu, hcases⟩ := step_cases s t h
  refine ⟨u.turns, u.draws, ?_⟩
  rw [← hu]
  obtain ⟨hs, hh⟩ | ⟨hs, rfl⟩ | rfl | rfl | hd | hd | ⟨w, hd⟩ | rfl := hcases
  · exact move_hostStep hs hh
  · exact .phase hs (phaseMove_phaseStep u)
  · exact move_linkTxStep u
  · exact move_linkRxStep u
  · exact move_deliverTx hd
  · exact move_deliverRx hd
  · exact move_deliverEvent hd
  · exact .host (hostFrame_clients _ u)

end Sys2Proof.Proofs
end

section
/-! SUPPORT. Every move keeps the invariant (10_state.md R25 to R34, R41). A term `{ h with … }` lists the clauses of
`StateInv` that a move touches; every other clause speaks of registers the move leaves as they were. -/

namespace Sys2Proof.Proofs

open Sys2Proof.Machine Sys2Proof.Laws

theorem inReset_of_inSearch {p : Phase} (h : inSearch p = true) : inReset p = false := by
  cases p <;> revert h <;> decide

theorem inSearch_of_inBitLoop {p : Phase} (h : inBitLoop p = true) : inSearch p = true := by
  simp only [inBitLoop, Bool.and_eq_true] at h
  exact h.1.1

theorem inited_of_running {s : State} (h : StateInv s) (hs : s.seq ≠ .idle) : s.inited = true := by
  cases hi : s.inited with
  | true => rfl
  | false => exact absurd (h.fresh hi).1 hs

/-- Before `INIT` nothing is in flight and no event can be pending, so both flags are 1 (R21, R29). -/
theorem isIdle_of_not_inited {s : State} (h : StateInv s) (hi : s.inited = false) : isIdle s = true := by
  obtain ⟨_, htx, hrx⟩ := h.fresh hi
  have hb : s.boundLink = none := by simpa [hi] using h.bound
  have htp : s.txPending = none := by simpa [hb] using h.txLink
  have hrp : s.rxPending = none := by simpa [hb] using h.rxLink
  simp [isIdle, h.txFlag, h.rxFlag, htx, hrx, htp, hrp]

theorem isIdle_iff (s : State) : isIdle s = true ↔ s.txDone = true ∧ s.rxDone = true := by
  simp [isIdle]

/-- With both flags 1 no event is pending (R29). -/
theorem pending_of_isIdle {s : State} (h : StateInv s) (hf : isIdle s = true) :
    s.txPending = none ∧ s.rxPending = none := by
  simp only [isIdle, h.txFlag, h.rxFlag, Bool.and_eq_true, Option.isNone_iff_eq_none] at hf
  obtain ⟨⟨_, htp⟩, _, hrp⟩ := hf
  exact ⟨htp, hrp⟩

theorem stateInv_turn {s : State} (h : StateInv s) (ts : List Turn) (n : Nat) :
    StateInv { s with turns := ts, draws := n } := { h with }

/-- No clause of the invariant speaks of what the host writes (R36). -/
theorem stateInv_hostFrame {s t : State} (h : StateInv s) (hf : HostFrame s t) : StateInv t := by
  rw [hf.frame]
  exact { h with }

theorem stateInv_program {s : State} (h : StateInv s) (ops : List HostOp) : StateInv { s with program := ops } :=
  { h with }

/-! ## Transfers and phases -/

/-- A command or a search that ends meets every clause about a running phase. -/
theorem stateInv_toIdle {s : State} (h : StateInv s) : StateInv { s with seq := .idle } :=
  { h with
    fresh := fun hi => ⟨rfl, (h.fresh hi).2⟩
    searching := nofun, index := nofun, dataTiming := by simp [inSearch], resetTiming := nofun, oneSymbol := nofun }

/-- From one phase of a search past its reset to another, the timing and the flag of exhaustion stay as they are. -/
theorem stateInv_toSearchPhase {s : State} {p : Phase} (h : StateInv s) (hs : inSearch s.seq = true)
    (hp : inSearch p = true) (hi : 1 ≤ s.i ∧ s.i ≤ 64) (hone : awaitsSymbol p = true → s.rxLen = 1) :
    StateInv { s with seq := p } :=
  { h with
    fresh := fun hinit => by simp [(h.fresh hinit).1, inSearch] at hs
    searching := fun _ => h.searching hs
    index := fun _ => hi
    dataTiming := fun _ => h.dataTiming (.inl hs)
    resetTiming := by simp [inReset_of_inSearch hp]
    oneSymbol := hone }

theorem stateInv_sendSymbols {s : State} (h : StateInv s) {syms : List Symbol} (hi : s.inited = true)
    (hf : isIdle s = true) (hr : inReset s.seq = false) (h1 : 1 ≤ syms.length) (h64 : syms.length ≤ 64) :
    StateInv (sendSymbols syms s) :=
  { h with
    fresh := by simp [hi]
    txFlag := rfl
    txOne := .inr (pending_of_isIdle h hf).1
    txCount := .inr ⟨rfl, h1⟩
    txLen := h64
    resetTiming := by simp [hr] }

theorem stateInv_readSlots {s : State} (h : StateInv s) {n : Nat} (hi : s.inited = true) (hf : isIdle s = true)
    (hr : inReset s.seq = false) (ha : awaitsSymbol s.seq = false) (h1 : 1 ≤ n) (h8 : n ≤ 8) :
    StateInv (readSlots n s) := by
  obtain ⟨htp, hrp⟩ := pending_of_isIdle h hf
  rw [readSlots_eq]
  exact { h with
    fresh := by simp [hi]
    txFlag := rfl
    rxFlag := rfl
    txOne := .inr htp
    rxOne := .inr hrp
    txCount := .inr ⟨rfl, h1⟩
    rxCount := .inr ⟨rfl, h1⟩
    txLen := by dsimp only; omega
    rxLen := h8
    resetTiming := by simp [hr]
    oneSymbol := by simp [ha] }

/-- The read slot of either bit of an index, from a phase that waits for no symbol (R189). -/
theorem stateInv_searchSlot {s : State} {p : Phase} (h : StateInv s) (hi : s.inited = true) (hf : isIdle s = true)
    (hs : inBitLoop s.seq = true) (ha : awaitsSymbol s.seq = false) (hp : inSearch p = true) :
    StateInv { readSlots 1 s with seq := p } := by
  have hsearch : inSearch s.seq = true := inSearch_of_inBitLoop hs
  have hslot := stateInv_readSlots (n := 1) h hi hf (inReset_of_inSearch hsearch) ha (by omega) (by omega)
  exact stateInv_toSearchPhase (s := readSlots 1 s) hslot hsearch hp (h.index hs) fun _ => rfl

/-- The start of a reset exchange, from `IDLE` with nothing outstanding (R152, R157). -/
theorem stateInv_startReset {s : State} {p : Phase} (h : StateInv s) (hi : s.inited = true) (hf : isIdle s = true)
    (hp : inReset p = true) : StateInv { startReset s with seq := p } := by
  have hp' : p = .rsWait ∨ p = .sReset := by simpa [inReset] using hp
  obtain rfl | rfl := hp' <;>
  exact { h with
    fresh := by simp [hi]
    searching := nofun, index := nofun
    dataTiming := by simp [inSearch]
    resetTiming := fun _ => ⟨rfl, hf⟩
    oneSymbol := nofun }

/-- When the answer ends the command, no clause speaks of the timing it leaves (R154, R155). -/
theorem stateInv_finishReset_idle {s : State} (h : StateInv s) : StateInv { finishReset s with seq := .idle } :=
  { stateInv_toIdle h with dataTiming := by simp [inSearch], resetTiming := nofun }

/-- A search goes on only on presence, which brings data-rate timing, and with devices left (R155, R185). -/
theorem stateInv_finishReset_sCmd {s : State} (h : StateInv s) (hi : s.inited = true) (ho : resetOutcome s = .ok)
    (hd : s.lastDeviceFlag = false) : StateInv { finishReset s with seq := .sCmd } :=
  { h with
    fresh := by simp [hi]
    searching := fun _ => hd
    index := nofun
    dataTiming := fun _ => by simp [ho]
    resetTiming := nofun, oneSymbol := nofun }

/-- `INIT` runs with nothing outstanding, before `INIT` as well as after it, so no event stays pending (R211, R213). -/
theorem stateInv_initEffect {s : State} {link : Link} (h : StateInv s) (hl : s.linkIn = some link)
    (hi : s.inited = false ∨ isIdle s = true) : StateInv (initEffect s) := by
  have hf : isIdle s = true := hi.elim (isIdle_of_not_inited h) id
  obtain ⟨htp, hrp⟩ := pending_of_isIdle h hf
  exact {
    params := h.params
    bound := by simp [initEffect, hl]
    fresh := nofun
    txFlag := by simp [initEffect, htp]
    rxFlag := by simp [initEffect, hrp]
    txOne := .inl rfl, rxOne := .inl rfl, txLink := .inl htp, rxLink := .inl hrp
    txCount := .inl rfl, rxCount := .inl rfl, txLen := Nat.zero_le _, rxLen := Nat.zero_le _
    discrepancy := Nat.zero_le _, exhausted := fun _ => rfl, searching := nofun, index := nofun
    zeroIndex := h.zeroIndex
    dataTiming := by simp [initEffect, inSearch]
    resetTiming := nofun, oneSymbol := nofun }

/-! ## The moves -/

theorem stateInv_firstStep {s t : State} {i : Instr} (h : StateInv s) (hs : s.seq = .idle) (hm : FirstStep s i t) :
    StateInv t := by
  have hr : inReset s.seq = false := by rw [hs]; rfl
  have ha : awaitsSymbol s.seq = false := by rw [hs]; rfl
  cases hm with
  | marked i r => exact stateInv_hostFrame h (hostFrame_raise r s)
  | init link hl hi => exact stateInv_initEffect h hl hi
  | send i syms h1 h64 hi hf ht => exact stateInv_sendSymbols h hi hf hr h1 h64
  | slots i n h1 h8 hi hf ht => exact stateInv_readSlots h hi hf hr ha h1 h8
  | readBit hi hf ht =>
    exact { stateInv_readSlots (n := 1) h hi hf hr ha (by omega) (by omega) with
      fresh := by simp [hi]
      searching := nofun, index := nofun
      dataTiming := fun _ => ht
      resetTiming := nofun
      oneSymbol := fun _ => rfl }
  | reset hi hf => exact stateInv_startReset h hi hf rfl
  | search hi hf => exact stateInv_startReset h hi hf rfl

theorem nextLastZero_le {s : State} (h : StateInv s) (hi : s.i ≤ 64) : nextLastZero s ≤ 64 := by
  unfold nextLastZero
  split
  · exact hi
  · exact h.zeroIndex

theorem stateInv_phaseMove {s t : State} (h : StateInv s) (hrun : s.seq ≠ .idle) (hm : PhaseMove s t) :
    StateInv t := by
  have hinit : s.inited = true := inited_of_running h hrun
  cases hm with
  | hold => exact h
  | bitRead hs hr => exact { stateInv_toIdle h with }
  | resetAnswered hs => exact stateInv_finishReset_idle h
  | searchAbsent hs =>
    exact { stateInv_finishReset_idle h with discrepancy := Nat.zero_le _, exhausted := nofun, searching := nofun }
  | searchExhausted hs => exact { stateInv_finishReset_idle h with }
  | searchPresent hs ho hd => exact stateInv_finishReset_sCmd h hinit ho hd
  | searchCommand hs hf =>
    have hone : 1 ≤ 1 ∧ 1 ≤ 64 := by decide
    have hlen := encodeByte_length s.params s.params.cmdSearchRom
    have hsend := stateInv_sendSymbols (syms := encodeByte s.params s.params.cmdSearchRom) h hinit hf
      (by rw [hs]; rfl) (by omega) (by omega)
    have hfirst : StateInv { sendSymbols (encodeByte s.params s.params.cmdSearchRom) s with i := 1, lastZero := 0 } :=
      { hsend with index := fun _ => hone, zeroIndex := Nat.zero_le _ }
    exact stateInv_toSearchPhase (p := .sIdIssue) hfirst (by simp [hs, inSearch]) rfl hone nofun
  | idSlot hs hf => exact stateInv_searchSlot h hinit hf (by rw [hs]; rfl) (by rw [hs]; rfl) rfl
  | idLatched hs hr =>
    have hnext := stateInv_toSearchPhase (p := .sCmpIssue) h (by rw [hs]; rfl) rfl (h.index (by rw [hs]; rfl)) nofun
    exact { hnext with }
  | cmpSlot hs hf => exact stateInv_searchSlot h hinit hf (by rw [hs]; rfl) (by rw [hs]; rfl) rfl
  | cmpLatched hs hr =>
    have hnext := stateInv_toSearchPhase (p := .sDecide) h (by rw [hs]; rfl) rfl (h.index (by rw [hs]; rfl)) nofun
    exact { hnext with }
  | conflict hs => exact { stateInv_toIdle h with discrepancy := Nat.zero_le _, exhausted := nofun, searching := nofun }
  | decided hs =>
    have hidx := h.index (by rw [hs]; rfl)
    have hnext := stateInv_toSearchPhase (p := .sDir) h (by rw [hs]; rfl) rfl hidx nofun
    exact { hnext with zeroIndex := nextLastZero_le h hidx.2 }
  | writeBack hs hf =>
    have hidx := h.index (by rw [hs]; rfl)
    have hsend := stateInv_sendSymbols (syms := [encodeBit s.params s.dir]) h hinit hf (by rw [hs]; rfl)
      (by simp) (by simp)
    have hnext : 1 ≤ (if s.i < 64 then s.i + 1 else s.i) ∧ (if s.i < 64 then s.i + 1 else s.i) ≤ 64 := by
      split <;> omega
    have hmoved : StateInv { sendSymbols [encodeBit s.params s.dir] s with i := if s.i < 64 then s.i + 1 else s.i } :=
      { hsend with index := fun _ => hnext }
    exact stateInv_toSearchPhase hmoved (by simp [hs, inSearch]) (by split <;> rfl) hnext (by split <;> nofun)
  | timingViolated hs ht => exact stateInv_toIdle (stateInv_hostFrame h (hostFrame_raise _ s))
  | finished hs =>
    have hflag : s.lastDeviceFlag = false := h.searching (by rw [hs]; rfl)
    exact { stateInv_toIdle h with
      discrepancy := h.zeroIndex
      exhausted := fun hset => by simpa [sFinishPhase, hflag] using hset
      searching := nofun }

/-- A transfer in flight has its flag at 0 and a link bound, so its event becomes the pending one (R138). -/
theorem stateInv_linkTxStep {s : State} {k : Nat} (h : StateInv s) (hk : s.txInflight = some k) :
    StateInv (linkTxStep s) := by
  have hb : s.boundLink.isNone = false := by
    cases hi : s.inited with
    | false => simp [(h.fresh hi).2.1] at hk
    | true => simpa [hi] using h.bound
  rw [linkTxStep_some s k hk]
  exact { h with
    fresh := fun hi => ⟨(h.fresh hi).1, rfl, (h.fresh hi).2.2⟩
    txFlag := by simp [h.txFlag, hk, hb]
    txOne := .inl rfl
    txLink := .inr rfl
    txCount := .inl rfl }

/-- The receive direction (R139). -/
theorem stateInv_linkRxStep {s : State} {n : Nat} (h : StateInv s) (hn : s.rxInflight = some n) :
    StateInv (linkRxStep s) := by
  have hb : s.boundLink.isNone = false := by
    cases hi : s.inited with
    | false => simp [(h.fresh hi).2.2] at hn
    | true => simpa [hi] using h.bound
  rw [linkRxStep_some s n _ _ hn rfl]
  exact { h with
    fresh := fun hi => ⟨(h.fresh hi).1, (h.fresh hi).2.1, rfl⟩
    rxFlag := by simp [h.rxFlag, hn, hb]
    rxOne := .inl rfl
    rxLink := .inr rfl
    rxCount := .inl rfl }

/-- A delivered event carries the bound link, so it sets its flag (R215, R216, R287). -/
theorem linkMatches_of_bound {s : State} {link : Link} (h : StateInv s) (hb : s.boundLink = some link) :
    linkMatches link s = true := by
  simp [linkMatches, h.bound, hb]

theorem stateInv_txDelivered {s : State} {link : Link} (h : StateInv s) (hl : s.txPending = some link) :
    StateInv { s with txPending := none, txDone := s.txDone || linkMatches link s } := by
  have hnone : s.txInflight = none := h.txOne.resolve_right (by simp [hl])
  have hb : s.txPending = s.boundLink := h.txLink.resolve_left (by simp [hl])
  have hm : linkMatches link s = true := linkMatches_of_bound h (hb.symm.trans hl)
  exact { h with
    txFlag := by simp [hm, hnone]
    txOne := .inr rfl
    txLink := .inl rfl
    resetTiming := fun hr => by
      obtain ⟨htiming, hf⟩ := h.resetTiming hr
      exact ⟨htiming, by simp [isIdle, hm, ((isIdle_iff s).1 hf).2]⟩ }

theorem stateInv_rxDelivered {s : State} {link : Link} (h : StateInv s) (hl : s.rxPending = some link) :
    StateInv { s with rxPending := none, rxDone := s.rxDone || linkMatches link s } := by
  have hnone : s.rxInflight = none := h.rxOne.resolve_right (by simp [hl])
  have hb : s.rxPending = s.boundLink := h.rxLink.resolve_left (by simp [hl])
  have hm : linkMatches link s = true := linkMatches_of_bound h (hb.symm.trans hl)
  exact { h with
    rxFlag := by simp [hm, hnone]
    rxOne := .inr rfl
    rxLink := .inl rfl
    resetTiming := fun hr => by
      obtain ⟨htiming, hf⟩ := h.resetTiming hr
      exact ⟨htiming, by simp [isIdle, hm, ((isIdle_iff s).1 hf).1]⟩ }

/-- An event word the contract allows finds its flag at 1 already, or carries another link (R217). -/
theorem txWord_flag {s : State} {w : EvtWord} (h : StateInv s) (hb : w.getLsbD 0 = true)
    (ha : eventAllowed w s = true) : (s.txDone || linkMatches (evtLink w) s) = s.txDone := by
  by_cases hl : s.boundLink = some (evtLink w)
  · have hdone : s.txDone = true := by simpa [eventAllowed, hl, hb, h.txFlag] using ha
    simp [hdone]
  · simp [linkMatches, hl]

theorem rxWord_flag {s : State} {w : EvtWord} (h : StateInv s) (hb : w.getLsbD 0 = false)
    (ha : eventAllowed w s = true) : (s.rxDone || linkMatches (evtLink w) s) = s.rxDone := by
  by_cases hl : s.boundLink = some (evtLink w)
  · have hdone : s.rxDone = true := by
      simpa only [eventAllowed, hl, hb, h.rxFlag, bne_self_eq_false, Bool.false_or, Bool.false_eq_true, if_false]
        using ha
    simp [hdone]
  · simp [linkMatches, hl]

theorem stateInv_move {s t : State} (h : StateInv s) (hm : Move s t) : StateInv t := by
  cases hm with
  | host hf => exact stateInv_hostFrame h hf
  | @command _ _ _ ops hs hp hd hi => exact stateInv_firstStep (stateInv_program h ops) hs hi
  | phase hs hp => exact stateInv_phaseMove h hs hp
  | sent hk => exact stateInv_linkTxStep h hk
  | landed hn => exact stateInv_linkRxStep h hn
  | txDelivered hl => exact stateInv_txDelivered h hl
  | rxDelivered hl => exact stateInv_rxDelivered h hl
  | txWord hb ha => rw [txWord_flag h hb ha]; exact h
  | rxWord hb ha => rw [rxWord_flag h hb ha]; exact h

/-- Settles O42: a step is one move on the state with its turn taken, and every move keeps the invariant. -/
theorem stepKeepsInvariant : Obligations.StepKeepsInvariant := by
  intro s t h hstep
  obtain ⟨ts, n, hm⟩ := step_move hstep
  exact stateInv_move (stateInv_turn h ts n) hm

end Sys2Proof.Proofs
end

section
/-! SUPPORT. What every step leaves as it was: the mark once set, the search state outside `SEARCH_NEXT` and `INIT`, the
transmit buffer in flight, and the transfers that are not issued (10_state.md R25, R27, R34, R43). -/

namespace Sys2Proof.Proofs

open Sys2Proof.Machine Sys2Proof.Laws

/-! ## The mark (R43) -/

theorem raise_keeps_fault {s : State} {r : Reason} (q : Reason) (h : s.fault = some r) :
    (raise q s).fault = some r := by
  rw [raise_fault, h]
  rfl

theorem firstStep_keeps_fault {s t : State} {i : Instr} {r : Reason} (hm : FirstStep s i t) (h : s.fault = some r) :
    t.fault = some r := by
  cases hm with
  | marked i q => exact raise_keeps_fault q h
  | init | send | slots | readBit | reset | search => exact h

theorem phaseMove_keeps_fault {s t : State} {r : Reason} (hm : PhaseMove s t) (h : s.fault = some r) :
    t.fault = some r := by
  cases hm with
  | timingViolated => exact raise_keeps_fault .timingViolation h
  | _ => exact h

theorem move_keeps_fault {s t : State} {r : Reason} (hm : Move s t) (h : s.fault = some r) : t.fault = some r := by
  cases hm with
  | host hf => exact hf.sticky r h
  | command hs hp hd hi => exact firstStep_keeps_fault hi h
  | phase hs hp => exact phaseMove_keeps_fault hp h
  | sent hk => rw [linkTxStep_some s _ hk]; exact h
  | landed hn => rw [linkRxStep_some s _ _ _ hn rfl]; exact h
  | txDelivered | rxDelivered | txWord | rxWord => exact h

/-- Settles O44: a step is one move, and no move touches a mark that is set. -/
theorem faultMarkIsNeverCleared : Obligations.FaultMarkIsNeverCleared := by
  intro s t r hstep h
  obtain ⟨ts, n, hm⟩ := step_move hstep
  exact move_keeps_fault hm h

/-! ## The search state (R34) -/

/-- The search state of R34 is the same in both states. -/
def SameSearchState (s t : State) : Prop :=
  t.lastDiscrepancy = s.lastDiscrepancy ∧ t.lastDeviceFlag = s.lastDeviceFlag ∧ t.lastRom = s.lastRom

theorem firstStep_searchState {s t : State} {i : Instr} (hm : FirstStep s i t) :
    i = .init ∨ SameSearchState s t := by
  cases hm with
  | init => exact .inl rfl
  | marked | send | slots | readBit | reset | search => exact .inr ⟨rfl, rfl, rfl⟩

theorem phaseMove_searchState {s t : State} (hm : PhaseMove s t) :
    s.seq = .sReset ∨ s.seq = .sDecide ∨ s.seq = .sFinish ∨ SameSearchState s t := by
  cases hm with
  | searchAbsent hs => exact .inl hs
  | conflict hs => exact .inr (.inl hs)
  | finished hs => exact .inr (.inr (.inl hs))
  | _ => exact .inr (.inr (.inr ⟨rfl, rfl, rfl⟩))

theorem move_searchState {s t : State} (hm : Move s t) :
    (s.seq = .sReset ∨ s.seq = .sDecide ∨ s.seq = .sFinish ∨
      (s.seq = .idle ∧ ∃ ops, s.program = .command 0x10#8 :: ops)) ∨ SameSearchState s t := by
  cases hm with
  | host hf => rw [hf.frame]; exact .inr ⟨rfl, rfl, rfl⟩
  | @command _ i w ops hs hp hd hi =>
    obtain rfl | hsame := firstStep_searchState hi
    · have hw : w = 0x10#8 := (decodeCommand_facts w .init (by simp [hd, Except.toOption])).2.1 rfl
      exact .inl (.inr (.inr (.inr ⟨hs, ops, hw ▸ hp⟩)))
    · exact .inr hsame
  | phase hs hp =>
    obtain h | h | h | h := phaseMove_searchState hp
    · exact .inl (.inl h)
    · exact .inl (.inr (.inl h))
    · exact .inl (.inr (.inr (.inl h)))
    · exact .inr h
  | sent hk => rw [linkTxStep_some s _ hk]; exact .inr ⟨rfl, rfl, rfl⟩
  | landed hn => rw [linkRxStep_some s _ _ _ hn rfl]; exact .inr ⟨rfl, rfl, rfl⟩
  | txDelivered | rxDelivered | txWord | rxWord => exact .inr ⟨rfl, rfl, rfl⟩

/-- Settles O47: a step is one move, and a move that leaves none of these phases and presents no `INIT` keeps the search
state. -/
theorem onlySearchAndInitWriteSearchState : Obligations.OnlySearchAndInitWriteSearchState := by
  intro s t hstep hchanged
  obtain ⟨ts, n, hm⟩ := step_move hstep
  refine (move_searchState hm).resolve_right ?_
  rintro ⟨hld, hflag, hrom⟩
  obtain h | h | h := hchanged
  · exact h hld
  · exact h hflag
  · exact h hrom

/-! ## The transmit buffer and the transfers in flight (R25, R27, R73, R79) -/

/-- The transmit buffer is the same in both states, and no transfer is in flight in `t` that was not in `s`. -/
structure IssuesNothing (s t : State) : Prop where
  txBuf : t.txBuf = s.txBuf
  tx : s.txInflight = none → t.txInflight = none
  rx : s.rxInflight = none → t.rxInflight = none

/-- A command other than `INIT` fills the buffer or issues a transfer only with both flags 1. -/
theorem firstStep_issues {s t : State} {i : Instr} (hm : FirstStep s i t) :
    (t = initEffect s ∧ (s.inited = false ∨ isIdle s = true)) ∨ isIdle s = true ∨ IssuesNothing s t := by
  cases hm with
  | init link hl hi => exact .inl ⟨rfl, hi⟩
  | send i syms h1 h64 hi hf => exact .inr (.inl hf)
  | slots i n h1 h8 hi hf => exact .inr (.inl hf)
  | readBit hi hf => exact .inr (.inl hf)
  | marked | reset | search => exact .inr (.inr ⟨rfl, id, id⟩)

theorem phaseMove_issues {s t : State} (hm : PhaseMove s t) : isIdle s = true ∨ IssuesNothing s t := by
  cases hm with
  | searchCommand hs hf => exact .inl hf
  | idSlot hs hf => exact .inl hf
  | cmpSlot hs hf => exact .inl hf
  | writeBack hs hf => exact .inl hf
  | _ => exact .inr ⟨rfl, id, id⟩

theorem move_issues {s t : State} (hm : Move s t) :
    (∃ ops, t = initEffect { s with program := ops } ∧ (s.inited = false ∨ isIdle s = true)) ∨
      isIdle s = true ∨ IssuesNothing s t := by
  cases hm with
  | host hf => rw [hf.frame]; exact .inr (.inr ⟨rfl, id, id⟩)
  | @command _ i w ops hs hp hd hi =>
    obtain hinit | hf | ⟨hbuf, htx, hrx⟩ := firstStep_issues hi
    · exact .inl ⟨ops, hinit⟩
    · exact .inr (.inl hf)
    · exact .inr (.inr ⟨hbuf, htx, hrx⟩)
  | phase hs hp => exact .inr (phaseMove_issues hp)
  | sent hk => rw [linkTxStep_some s _ hk]; exact .inr (.inr ⟨rfl, fun _ => rfl, id⟩)
  | landed hn => rw [linkRxStep_some s _ _ _ hn rfl]; exact .inr (.inr ⟨rfl, id, fun _ => rfl⟩)
  | txDelivered | rxDelivered | txWord | rxWord => exact .inr (.inr ⟨rfl, id, id⟩)

theorem not_isIdle_of_txDone {s : State} (h : s.txDone = false) : isIdle s ≠ true := by
  simp [isIdle, h]

/-- Settles O48: with a flag at 0 a move that writes `tx_buf` could only be `INIT`, which the invariant shuts out. -/
theorem transmitBufferStableInFlight : Obligations.TransmitBufferStableInFlight := by
  intro s t hinv hstep hbusy
  obtain ⟨ts, n, hm⟩ := step_move hstep
  have hbusy' : isIdle { s with turns := ts, draws := n } ≠ true := not_isIdle_of_txDone hbusy
  obtain ⟨_, _, hi⟩ | hf | hnothing := move_issues hm
  · exact absurd (hi.elim (isIdle_of_not_inited (stateInv_turn hinv ts n)) id) hbusy'
  · exact absurd hf hbusy'
  · exact hnothing.txBuf

/-- Settles O49: a move that finds a flag at 0 puts nothing in flight, and `INIT` leaves nothing in flight. -/
theorem transfersIssueOnlyWhenIdle : Obligations.TransfersIssueOnlyWhenIdle := by
  intro s t hstep hissued
  obtain ⟨ts, n, hm⟩ := step_move hstep
  obtain ⟨_, rfl, _⟩ | hf | hnothing := move_issues hm
  · obtain ⟨_, hsome⟩ | ⟨_, hsome⟩ := hissued <;> exact absurd rfl hsome
  · exact (isIdle_iff _).1 hf
  · obtain ⟨hnone, hsome⟩ | ⟨hnone, hsome⟩ := hissued
    · exact absurd (hnothing.tx hnone) hsome
    · exact absurd (hnothing.rx hnone) hsome

end Sys2Proof.Proofs
end

section
/-! SUPPORT. The registers the host reads and writes, and power-on (10_state.md R35 to R37, R44; R108, R219). -/

namespace Sys2Proof.Proofs

open Sys2Proof.Machine Sys2Proof.Laws

/-! ## Reads (R37, R94, R219, R275) -/

theorem assembleByte_getLsbD (bits : List Bool) (j : Nat) (hj : j < 8) :
    (assembleByte bits).getLsbD j = bits.getD j false := by
  induction bits generalizing j with
  | nil => simp [assembleByte]
  | cons b rest ih =>
    cases j with
    | zero => cases b <;> simp [assembleByte]
    | succ j =>
      have hj' : j < 8 := by omega
      simpa [assembleByte, hj, hj'] using ih j hj'

/-- Bit `j` of the received byte is symbol `j` decoded (R37). -/
theorem rxByteOf_getLsbD {s : State} {j : Nat} {x : Symbol} (hj : j < 8) (hx : s.rxBuf[j]? = some x) :
    (rxByteOf s).getLsbD j = decodeSym s.params x := by
  obtain ⟨_, rfl⟩ := Vector.getElem?_eq_some_iff.1 hx
  rw [rxByteOf, assembleByte_getLsbD _ j hj]
  simp [hj]

theorem decodeSym_eq (p : Params) (x : Symbol) : decodeSym p x = decide (x = p.symIdle) := by
  simp [decodeSym, Bool.beq_eq_decide_eq]

theorem readView_not_inited {s : State} (h : s.inited = false) (v : View) : readView v s = .error .notInitialised := by
  simp [readView, h]

theorem readView_rxByte {s : State} (h : s.inited = true) :
    readView .rxByte s = if rxByteValid s then .ok (.byte (rxByteOf s)) else .error .rxViewInvalid := by
  simp [readView, h]

theorem readView_rxBit {s : State} (h : s.inited = true) :
    readView .rxBit s =
      if rxBitValid s then .ok (.bit (decodeSym s.params s.rxBuf[0])) else .error .rxViewInvalid := by
  simp [readView, h]

/-- Settles O37: each clause is the read's equation with the view's validity decided. -/
theorem rxViewsDecodeReceivedSymbols : Obligations.RxViewsDecodeReceivedSymbols := by
  intro s
  refine ⟨readView_not_inited, fun hi => ⟨fun hbad => ?_, fun hd hl => ?_, fun hbad => ?_, fun x hd hl hx => ?_⟩⟩
  · have hinvalid : rxByteValid s = false := by obtain h | h := hbad <;> simp [rxByteValid, h]
    simp [readView_rxByte hi, hinvalid]
  · refine ⟨rxByteOf s, by simp [readView_rxByte hi, rxByteValid, hd, hl], fun j x hj hx => ?_⟩
    rw [rxByteOf_getLsbD hj hx, decodeSym_eq]
  · have hinvalid : rxBitValid s = false := by obtain h | h := hbad <;> simp [rxBitValid, h]
    simp [readView_rxBit hi, hinvalid]
  · obtain ⟨_, rfl⟩ := Vector.getElem?_eq_some_iff.1 hx
    simp [readView_rxBit hi, rxBitValid, hd, hl, decodeSym_eq]

theorem flagsOf_bits (s : State) : (flagsOf s).getLsbD 0 = s.txDone ∧ (flagsOf s).getLsbD 1 = s.rxDone := by
  unfold flagsOf
  cases s.txDone <;> cases s.rxDone <;> decide

theorem hostRead_of_ok {v : View} {s : State} {x : ViewValue} (h : readView v s = .ok x) :
    hostRead v s = { s with clients := { s.clients with seen := s.clients.seen ++ [x] } } := by
  simp only [hostRead, readThen, h]

theorem hostRead_of_error {v : View} {s : State} {r : Reason} (h : readView v s = .error r) :
    hostRead v s = { s with fault := some (s.fault.getD r) } := by
  simp only [hostRead, readThen, h, id, raise_eq]

/-- Settles O39: the reads of the flags and result registers, and what the host does with a value or a reason. -/
theorem statusReadsReportRegisters : Obligations.StatusReadsReportRegisters := by
  intro s
  refine ⟨fun hi => ⟨⟨flagsOf s, ?_, flagsOf_bits s⟩, ?_, ?_, ?_, ?_⟩, fun v => ⟨fun x h => ?_, fun r h => ?_⟩⟩
  · simp [readView, hi]
  · simp [readView, hi]
  · simp [readView, hi]
  · simp [readView, hi]
  · cases hp : s.rPresence <;> simp [readView, hi, hp, presenceCode]
  · exact congrArg Host.Outcome.next (hostRead_of_ok h)
  · exact congrArg Host.Outcome.next (hostRead_of_error h)

/-! ## Writes (R36) -/

/-- Settles O52: each write is one record update; the bytes of `ADDR_IN` are told apart by their index. -/
theorem hostWritesOperandRegisters : Obligations.HostWritesOperandRegisters := by
  intro s link v j
  refine ⟨rfl, rfl, _, rfl, rfl, ?_, fun k hk => ?_⟩
  · exact Vector.getElem?_set_self j.isLt
  · exact Vector.getElem?_set_ne j.isLt (Ne.symm hk)

/-! ## Power-on (R44, R300) -/

theorem command_not_inited {cs : List Check} {f : State → State} {s : State} (hs : s.seq = .idle)
    (hi : s.inited = false) :
    command (checkInited s :: cs) f s = .next { s with fault := some (s.fault.getD .notInitialised) } := by
  rw [command_violation _ _ _ .notInitialised hs (by simp [checkInited, hi]), raise_eq]

/-- A legal count passes the check that stands before the one of `INIT` (R107, R282). -/
theorem command_legalCount {cs : List Check} {f : State → State} {s : State} {n : Nat} (hn : legalCount n = true) :
    command (checkCount n :: cs) f s = command cs f s := by
  simp [command, checkCount, hn]

/-- Before `INIT` every well-formed command but `INIT` is refused (R108). -/
theorem exec_not_inited {i : Instr} {s : State} (hc : i.isCommand = true) (hw : i.wf = true) (hne : i ≠ .init)
    (hs : s.seq = .idle) (hi : s.inited = false) :
    exec i s = .next { s with fault := some (s.fault.getD .notInitialised) } := by
  cases i with
  | init => exact absurd rfl hne
  | writeBit b => rw [exec_writeBit]; exact command_not_inited hs hi
  | writeByte => rw [exec_writeByte]; exact command_not_inited hs hi
  | writeAddr n =>
    have hn : legalCount n = true := hw
    rw [exec_writeAddr, command_legalCount hn]
    exact command_not_inited hs hi
  | readIssue n =>
    have hn : legalCount n = true := hw
    rw [exec_readIssue, command_legalCount hn]
    exact command_not_inited hs hi
  | readBit => rw [exec_readBit]; exact command_not_inited hs hi
  | reset => rw [exec_reset]; exact command_not_inited hs hi
  | searchNext => rw [exec_searchNext]; exact command_not_inited hs hi
  | rxComplete link => cases hc
  | txComplete link => cases hc

/-- Settles O40: the registers of the power-on state, and the refusals of a state that is not initialised. -/
theorem powerOnRefusesCommands : Obligations.PowerOnRefusesCommands := by
  refine ⟨rfl, rfl, rfl, rfl, fun j hj => ?_, rfl, rfl, fun i hc hw hne => exec_not_inited hc hw hne rfl rfl, ?_⟩
  · simp [State.reset, hj]
  · rw [exec_init, command_violation _ _ _ .operandUnwritten rfl rfl, raise_eq]
    rfl

/-- Settles O41: each clause is decided at the values of power-on. -/
theorem resetMeetsInvariant : Obligations.ResetMeetsInvariant := by
  constructor <;> decide

/-! ## The sequencer's turn (R40) -/

/-- Settles O6: the polling turn with a command running is the sequencer's, which never writes the host's program. -/
theorem stepRunsSequencerWhileBlocked : Obligations.StepRunsSequencerWhileBlocked := by
  intro s ts hs hturns
  obtain ⟨_, _, _, _, _, hprogram, _⟩ := phaseStep_frame { s with turns := ts }
  refine ⟨?_, hprogram⟩
  rw [step_of_turn s .polling ts hturns]
  simp only [agentStep, pollingStep, hs, if_false]

end Sys2Proof.Proofs
end

section
/-! SUPPORT. Bits, bytes and symbols (20_memory.md R61, R64, R65): one identity bit written, and a byte received. -/

namespace Sys2Proof.Proofs

open Sys2Proof.Machine Sys2Proof.Laws

/-! ## The identity bit map (R64) -/

/-- A written bit of a byte reads back, and the others are kept. -/
theorem setByteBit_getLsbD (v : Byte) (k m : Nat) (b : Bool) (hm : m < 8) :
    (setByteBit v k b).getLsbD m = if m = k then b else v.getLsbD m := by
  have hmask : (1#8 <<< k).getLsbD m = decide (m = k) := by
    rw [← BitVec.twoPow, BitVec.getLsbD_twoPow, ← Bool.decide_and]
    exact decide_eq_decide.2 (by omega)
  cases b
  · simp only [setByteBit, Bool.false_eq_true, if_false, BitVec.getLsbD_and, BitVec.getLsbD_not, hmask, hm]
    by_cases hk : m = k <;> simp [hk]
  · simp only [setByteBit, if_true, BitVec.getLsbD_or, hmask]
    by_cases hk : m = k <;> simp [hk]

theorem idBit_of_getElem? {rom : Rom} {i : Nat} {v : Byte} (h : rom[(i - 1) / 8]? = some v) :
    idBit rom i = v.getLsbD ((i - 1) % 8) := by
  obtain ⟨hk, rfl⟩ := Vector.getElem?_eq_some_iff.1 h
  simp [idBit, Vector.getD, hk]

theorem setIdBit_getElem? (rom : Rom) (i : Nat) (b : Bool) {k : Nat} (hk : k < 8) :
    (setIdBit rom i b)[k]? = some (if k = (i - 1) / 8 then setByteBit rom[k] ((i - 1) % 8) b else rom[k]) := by
  simp [setIdBit, hk]

/-- Settles O34: the bits of a byte are told apart by the remainder, the bytes by the quotient, and the two together
give the index back. -/
theorem identityBitWrittenReadsBack : Obligations.IdentityBitWrittenReadsBack := by
  intro rom i b hi _
  refine ⟨fun v => idBit_of_getElem?, fun j hj hj64 => ?_⟩
  have hbyte : (j - 1) / 8 < 8 := by omega
  have hold : idBit rom j = (rom[(j - 1) / 8]).getLsbD ((j - 1) % 8) :=
    idBit_of_getElem? (Vector.getElem?_eq_getElem hbyte)
  rw [idBit_of_getElem? (setIdBit_getElem? rom i b hbyte), hold]
  by_cases hsame : (j - 1) / 8 = (i - 1) / 8
  · rw [if_pos hsame, setByteBit_getLsbD _ _ _ _ (Nat.mod_lt _ (by omega))]
    have hindex : (j - 1) % 8 = (i - 1) % 8 ↔ j = i := by omega
    simp only [hindex]
  · have hne : j ≠ i := fun h => hsame (h ▸ rfl)
    rw [if_neg hsame, if_neg hne]

/-! ## A byte received (R65, R61) -/

/-- Eight received symbols that encode a byte assemble to that byte, when the symbols are distinct (R8). -/
theorem rxByteOf_encodeByte {s : State} {v : Byte} (hp : paramsOk s.params = true)
    (hbuf : s.rxBuf.toList = encodeByte s.params v) : rxByteOf s = v := by
  refine BitVec.eq_of_getLsbD_eq fun j hj => ?_
  have hsymbol : s.rxBuf[j]? = some (encodeBit s.params (v.getLsbD j)) := by
    rw [← Vector.getElem?_toList, hbuf, encodeByte_getElem? _ _ _ hj]
  rw [rxByteOf_getLsbD hj hsymbol, decodeSym_encodeBit _ hp]

/-- Settles O38: the read is valid, and its value is the byte that was encoded. -/
theorem rxByteInvertsTheEncoding : Obligations.RxByteInvertsTheEncoding := by
  intro s v hp hi hd hl hbuf
  have hvalid : rxByteValid s = true := by simp [rxByteValid, hd, hl]
  rw [readView_rxByte hi, if_pos hvalid, rxByteOf_encodeByte hp hbuf]

end Sys2Proof.Proofs
end

section
/-! SUPPORT. The words of the two ports (30_encoding.md R95 to R98, R104, R106, R107): a command word is its opcode and
its immediate, an event word its link and its selector; what each format reads and refuses; decoding and encoding are
inverse to each other. -/

namespace Sys2Proof.Proofs

open Sys2Proof.Machine Sys2Proof.Laws

/-! ## The fields of a word (R95, R104) -/

@[simp] theorem cmdOp_append (op imm : BitVec 4) : cmdOp (op ++ imm) = op := BitVec.extractLsb'_append_eq_left

@[simp] theorem cmdImm_append (op imm : BitVec 4) : cmdImm (op ++ imm) = imm := BitVec.extractLsb'_append_eq_right

theorem cmdOp_append_cmdImm (w : Byte) : (cmdOp w ++ cmdImm w : Byte) = w :=
  BitVec.extractLsb'_append_extractLsb' (w := 4) (len := 4)

theorem cmd_eq_of_fields {w : Byte} {op imm : BitVec 4} (hop : cmdOp w = op) (himm : cmdImm w = imm) :
    PortWord.cmd (op ++ imm) = .cmd w := by
  rw [← hop, ← himm, cmdOp_append_cmdImm]

theorem cmdOp_toNat (w : Byte) : (cmdOp w).toNat = w.toNat / 16 := by
  rw [cmdOp, BitVec.extractLsb'_toNat, Nat.shiftRight_eq_div_pow]
  omega

theorem cmdImm_toNat (w : Byte) : (cmdImm w).toNat = w.toNat % 16 := by
  simp [cmdImm]

@[simp] theorem evtLink_evtWord (link : Link) (sel : BitVec 1) : evtLink (evtWord link sel) = link :=
  BitVec.extractLsb'_append_eq_left

theorem evtWord_evtLink (w : EvtWord) : evtWord (evtLink w) (BitVec.ofBool (w.getLsbD 0)) = w := by
  rw [evtWord, evtLink, ← BitVec.setWidth_one, BitVec.setWidth_eq_extractLsb' (by omega)]
  exact BitVec.extractLsb'_append_extractLsb' (w := 8) (len := 1)

theorem decodeEvent_tx {w : EvtWord} (h : w.getLsbD 0 = true) : decodeEvent w = .txComplete (evtLink w) := if_pos h

theorem decodeEvent_rx {w : EvtWord} (h : w.getLsbD 0 = false) : decodeEvent w = .rxComplete (evtLink w) :=
  if_neg (ne_true_of_eq_false h)

/-! ## Encoding (R96, R104) -/

theorem encode_writeBit (b : Bool) :
    encode (.writeBit b) = .cmd (2#4 ++ BitVec.setWidth 4 (BitVec.ofBool b)) := by
  cases b <;> rfl

theorem encode_writeAddr (n : Nat) : encode (.writeAddr n) = .cmd (4#4 ++ BitVec.ofNat 4 n) := rfl

theorem encode_readIssue (n : Nat) : encode (.readIssue n) = .cmd (5#4 ++ BitVec.ofNat 4 n) := rfl

/-! ## The formats (R97, R107) -/

theorem legalCount_iff (n : Nat) : legalCount n = true ↔ 1 ≤ n ∧ n ≤ 8 := by
  simp [legalCount]

theorem formatFB_bit (b : Bool) (f : Bool → Instr) :
    formatFB (BitVec.setWidth 4 (BitVec.ofBool b)) f = .ok (f b) := by
  cases b <;> rfl

theorem formatFN_count {n : Nat} (hn : legalCount n = true) (f : Nat → Instr) :
    formatFN (BitVec.ofNat 4 n) f = .ok (f n) := by
  have hfits : n % 16 = n := by
    rw [legalCount_iff] at hn
    omega
  simp [formatFN, hfits, hn]

/-- An immediate whose upper three bits are 0 is its bit 0. -/
theorem imm_of_upper_zero : ∀ imm : BitVec 4, imm.extractLsb' 1 3 = 0#3 →
    BitVec.setWidth 4 (BitVec.ofBool (imm.getLsbD 0)) = imm := by
  decide

/-- A word of format `F0` that decodes is the one word of its instruction. -/
theorem formatF0_one_word {w : Byte} {op : BitVec 4} {i j : Instr} (hop : cmdOp w = op)
    (hi : i.wf = true ∧ encode i = .cmd (op ++ 0#4)) (h : formatF0 (cmdImm w) i = .ok j) :
    j.wf = true ∧ encode j = .cmd w := by
  unfold formatF0 at h
  split at h
  next himm =>
    cases h
    exact ⟨hi.1, hi.2.trans (cmd_eq_of_fields hop himm)⟩
  · cases h

/-- A word of format `FB` that decodes is the one word of its instruction. -/
theorem formatFB_one_word {w : Byte} {op : BitVec 4} {f : Bool → Instr} {j : Instr} (hop : cmdOp w = op)
    (hf : ∀ b, (f b).wf = true ∧ encode (f b) = .cmd (op ++ BitVec.setWidth 4 (BitVec.ofBool b)))
    (h : formatFB (cmdImm w) f = .ok j) : j.wf = true ∧ encode j = .cmd w := by
  unfold formatFB at h
  split at h
  next himm =>
    cases h
    obtain ⟨hwf, hword⟩ := hf ((cmdImm w).getLsbD 0)
    rw [imm_of_upper_zero _ himm] at hword
    exact ⟨hwf, hword.trans (cmd_eq_of_fields hop rfl)⟩
  · cases h

/-- A word of format `FN` that decodes is the one word of its instruction. -/
theorem formatFN_one_word {w : Byte} {op : BitVec 4} {f : Nat → Instr} {j : Instr} (hop : cmdOp w = op)
    (hf : ∀ n, (f n).wf = legalCount n ∧ encode (f n) = .cmd (op ++ BitVec.ofNat 4 n))
    (h : formatFN (cmdImm w) f = .ok j) : j.wf = true ∧ encode j = .cmd w := by
  unfold formatFN at h
  split at h
  next hcount =>
    cases h
    obtain ⟨hwf, hword⟩ := hf (cmdImm w).toNat
    rw [BitVec.ofNat_toNat, BitVec.setWidth_eq] at hword
    exact ⟨hwf.trans hcount, hword.trans (cmd_eq_of_fields hop rfl)⟩
  · cases h

/-! ## What each format refuses (R97, R107) -/

theorem ite_refuses {c : Prop} [Decidable c] {i : Instr} {r : DecodeError} :
    (∃ e, (if c then Except.ok i else .error r) = .error e) ↔ ¬c := by
  split <;> simp [*]

theorem formatF0_refuses (imm : BitVec 4) (i : Instr) : (∃ e, formatF0 imm i = .error e) ↔ imm.toNat ≠ 0 := by
  have hzero : imm = 0#4 ↔ imm.toNat = 0 := BitVec.toNat_inj.symm
  rw [formatF0, ite_refuses, hzero]

theorem formatFB_refuses (imm : BitVec 4) (f : Bool → Instr) :
    (∃ e, formatFB imm f = .error e) ↔ 2 ≤ imm.toNat := by
  have hupper : imm.extractLsb' 1 3 = 0#3 ↔ imm.toNat < 2 := by
    revert imm
    decide
  rw [formatFB, ite_refuses, hupper, Nat.not_lt]

theorem formatFN_refuses (imm : BitVec 4) (f : Nat → Instr) :
    (∃ e, formatFN imm f = .error e) ↔ imm.toNat = 0 ∨ 9 ≤ imm.toNat := by
  rw [formatFN, ite_refuses, legalCount_iff]
  omega

/-! ## Decoding and encoding are inverse (R96 to R98, R104) -/

/-- Settles O2: a command word is its opcode and its immediate, and its format reads the operand back; an event word is
its link and its selector. -/
theorem decodeEncodeRoundTrip : Obligations.DecodeEncodeRoundTrip := by
  intro i hwf
  cases i with
  | init => rfl
  | writeBit b =>
    rw [encode_writeBit]
    simp [decode, decodeCommand, formatFB_bit]
  | writeByte => rfl
  | writeAddr n =>
    have hn : legalCount n = true := hwf
    rw [encode_writeAddr]
    simp [decode, decodeCommand, formatFN_count hn]
  | readIssue n =>
    have hn : legalCount n = true := hwf
    rw [encode_readIssue]
    simp [decode, decodeCommand, formatFN_count hn]
  | readBit => rfl
  | reset => rfl
  | searchNext => rfl
  | rxComplete link =>
    have hbit : (evtWord link 0#1).getLsbD 0 = false := Encoded.evtWord_bit0 link 0#1
    rw [encode, decode, decodeEvent_rx hbit, evtLink_evtWord]
  | txComplete link =>
    have hbit : (evtWord link 1#1).getLsbD 0 = true := Encoded.evtWord_bit0 link 1#1
    rw [encode, decode, decodeEvent_tx hbit, evtLink_evtWord]

theorem decodeCommand_one_word {w : Byte} {i : Instr} (h : decodeCommand w = .ok i) :
    i.wf = true ∧ encode i = .cmd w := by
  unfold decodeCommand at h
  split_ifs at h with hinit hwriteBit hwriteByte hwriteAddr hreadIssue hreadBit hreset hsearch
  · exact formatF0_one_word hinit ⟨rfl, rfl⟩ h
  · exact formatFB_one_word hwriteBit (fun b => ⟨rfl, encode_writeBit b⟩) h
  · exact formatF0_one_word hwriteByte ⟨rfl, rfl⟩ h
  · exact formatFN_one_word hwriteAddr (fun n => ⟨rfl, encode_writeAddr n⟩) h
  · exact formatFN_one_word hreadIssue (fun n => ⟨rfl, encode_readIssue n⟩) h
  · exact formatF0_one_word hreadBit ⟨rfl, rfl⟩ h
  · exact formatF0_one_word hreset ⟨rfl, rfl⟩ h
  · exact formatF0_one_word hsearch ⟨rfl, rfl⟩ h

theorem decodeEvent_one_word (w : EvtWord) : (decodeEvent w).wf = true ∧ encode (decodeEvent w) = .evt w := by
  have hword := evtWord_evtLink w
  cases hbit : w.getLsbD 0 <;> rw [hbit] at hword
  case false => exact decodeEvent_rx hbit ▸ ⟨rfl, congrArg PortWord.evt hword⟩
  case true => exact decodeEvent_tx hbit ▸ ⟨rfl, congrArg PortWord.evt hword⟩

/-- Settles O3: by the port of the word. -/
theorem everyWordHasOneMeaning : Obligations.EveryWordHasOneMeaning := by
  intro p i h
  cases p with
  | cmd w => exact decodeCommand_one_word h
  | evt w =>
    cases h
    exact decodeEvent_one_word w

/-! ## The reserved words (R106, R107) -/

/-- The reserved words, in the fields the decoder reads. -/
theorem reservedWord_fields (w : Byte) :
    reservedWord w = true ↔
      (cmdOp w).toNat = 0 ∨ 9 ≤ (cmdOp w).toNat ∨
      (((cmdOp w).toNat = 1 ∨ (cmdOp w).toNat = 3 ∨ 6 ≤ (cmdOp w).toNat) ∧ (cmdImm w).toNat ≠ 0) ∨
      ((cmdOp w).toNat = 2 ∧ 2 ≤ (cmdImm w).toNat) ∨
      (((cmdOp w).toNat = 4 ∨ (cmdOp w).toNat = 5) ∧ ((cmdImm w).toNat = 0 ∨ 9 ≤ (cmdImm w).toNat)) := by
  simp [reservedWord, cmdOp_toNat, cmdImm_toNat, or_assoc]

/-- The decoder refuses the reserved words and no others. -/
theorem decodeCommand_refuses (w : Byte) : (∃ e, decodeCommand w = .error e) ↔ reservedWord w = true := by
  rw [reservedWord_fields]
  unfold decodeCommand
  split_ifs with hinit hwriteBit hwriteByte hwriteAddr hreadIssue hreadBit hreset hsearch
  · simp [formatF0_refuses, hinit]
  · simp [formatFB_refuses, hwriteBit]
  · simp [formatF0_refuses, hwriteByte]
  · simp [formatFN_refuses, hwriteAddr]
  · simp [formatFN_refuses, hreadIssue]
  · simp [formatF0_refuses, hreadBit]
  · simp [formatF0_refuses, hreset]
  · simp [formatF0_refuses, hsearch]
  · have hop : (cmdOp w).toNat = 0 ∨ 9 ≤ (cmdOp w).toNat := by bv_omega
    exact ⟨fun _ => hop.imp_right .inl, fun _ => ⟨_, rfl⟩⟩

theorem presentCommand_refused {w : Byte} {s : State} {e : DecodeError} (hd : decodeCommand w = .error e)
    (hs : s.seq = .idle) : presentCommand w s = .next (raise .illegalCommand s) := by
  simp only [presentCommand, hd, hs, if_true]

/-- Settles O4: the decoder and the list of reserved words agree on the fields of the word, and a refused word raises
the mark. -/
theorem reservedWordsRefused : Obligations.ReservedWordsRefused := by
  intro w
  refine ⟨decodeCommand_refuses w, fun hreserved s hs => ?_⟩
  obtain ⟨e, hd⟩ := (decodeCommand_refuses w).2 hreserved
  rw [presentCommand_refused hd hs, raise_eq]

/-- Settles O1: each word is evaluated. -/
theorem specWordsDecode : Obligations.SpecWordsDecode := by
  unfold Obligations.SpecWordsDecode
  decide

end Sys2Proof.Proofs
end

section
/-! SUPPORT. A step of the polling context or of an event runs the decoded instruction (30_encoding.md R95, R104, R111;
44_init_and_events.md R217, R218), and a command handed over while another runs stops (R95; 92_eei_decisions.md D28). -/

namespace Sys2Proof.Proofs

open Sys2Proof.Machine Sys2Proof.Laws

/-! ## The host's operation at `IDLE` (R40, R95, R111) -/

/-- On the polling context's turn at `IDLE` the host's oldest operation runs. -/
theorem step_hostOp {s : State} {ts : List Turn} {op : HostOp} {ops : List HostOp} (hs : s.seq = .idle)
    (ht : s.turns = .polling :: ts) (hp : s.program = op :: ops) :
    step s = hostOp op { s with turns := ts, program := ops } := by
  rw [step_of_turn s .polling ts ht]
  simp only [agentStep, pollingStep, hs, if_true, hostStep, hp]

theorem presentCommand_decoded {w : Byte} {i : Instr} (s : State) (hd : decodeCommand w = .ok i) :
    presentCommand w s = exec i s := by
  simp only [presentCommand, hd]

/-- Settles O5: the host's operation is the word, and the word is presented. -/
theorem stepRunsPresentedCommand : Obligations.StepRunsPresentedCommand := by
  intro s w i ts ops hs ht hp hd
  rw [step_hostOp hs ht hp]
  exact presentCommand_decoded _ hd

/-- Settles O59: the read of the flags is valid after `INIT`, and an operation put back restores the program. -/
theorem waitIdleHoldsForBothFlags : Obligations.WaitIdleHoldsForBothFlags := by
  intro s ops ts hs hi ht hp
  rw [step_hostOp hs ht hp]
  have hread := withFlags_eq id (pushOps [.waitIdle]) { s with turns := ts, program := ops } hi
  refine congrArg Host.Outcome.next (hread.trans ?_)
  have hflags : isIdle { s with turns := ts, program := ops } = isIdle s := rfl
  rw [hflags, hp]
  split <;> rfl

/-! ## The events (R104, R217, R218) -/

theorem step_txEvent {s : State} {ts : List Turn} {link : Link} (ht : s.turns = .txEvent :: ts)
    (hl : s.txPending = some link) :
    step s = exec (.txComplete link) { s with turns := ts, txPending := none } := by
  rw [step_of_turn s .txEvent ts ht]
  simp only [agentStep, deliverTx, hl]

theorem step_rxEvent {s : State} {ts : List Turn} {link : Link} (ht : s.turns = .rxEvent :: ts)
    (hl : s.rxPending = some link) :
    step s = exec (.rxComplete link) { s with turns := ts, rxPending := none } := by
  rw [step_of_turn s .rxEvent ts ht]
  simp only [agentStep, deliverRx, hl]

theorem step_event {s : State} {ts : List Turn} {w : EvtWord} (ht : s.turns = .event w :: ts) :
    step s = if eventAllowed w s then exec (decodeEvent w) { s with turns := ts } else .next { s with turns := ts } :=
  step_of_turn s (.event w) ts ht

/-- Settles O7: one clause for each kind of event turn, the last two by what the contract says. -/
theorem stepDeliversEvents : Obligations.StepDeliversEvents := by
  intro s ts link w
  refine ⟨step_txEvent, step_rxEvent, fun ht ha => ?_, fun ht ha => ?_⟩
  · rw [step_event ht, if_pos ha]
  · rw [step_event ht, if_neg (ne_true_of_eq_false ha)]

/-! ## A placed word (R95, R104) -/

/-- A table word that decodes names a port's word, and that word is the one placed. -/
theorem decodeTableWord_some {nbits w : Nat} {i : Instr} (h : decodeTableWord nbits w = some i) :
    ∃ p, decode p = .ok i ∧ ∀ s : State, s.withFetchWord nbits w = placeWord p s := by
  unfold decodeTableWord at h
  split at h
  · cases h
  next p hp =>
    split at h
    next j hd =>
      cases h
      exact ⟨p, hd, fun s => by simp only [State.withFetchWord, placeTableWord, hp]⟩
    · cases h

theorem isCommand_of_decodeCommand {w : Byte} {i : Instr} (hd : decodeCommand w = .ok i) : i.isCommand = true :=
  (decodeCommand_facts w i (by simp [hd, Except.toOption])).1

theorem step_placed_command {w : Byte} {i : Instr} (hd : decodeCommand w = .ok i) (s : State) :
    step (placeWord (.cmd w) s) = exec i { s with seq := .idle } :=
  stepRunsPresentedCommand _ w i s.turns s.program rfl rfl rfl hd

theorem step_placed_tx {w : EvtWord} (hbit : w.getLsbD 0 = true) (s : State) :
    step (placeWord (.evt w) s) = exec (.txComplete (evtLink w)) { s with txPending := none } := by
  rw [placeWord, if_pos hbit]
  exact step_txEvent rfl rfl

theorem step_placed_rx {w : EvtWord} (hbit : w.getLsbD 0 = false) (s : State) :
    step (placeWord (.evt w) s) = exec (.rxComplete (evtLink w)) { s with rxPending := none } := by
  rw [placeWord, if_neg (ne_true_of_eq_false hbit)]
  exact step_rxEvent rfl rfl

/-- Settles O8: the word's port, and on the event port its selector, say which clause speaks of it. -/
theorem placedWordRunsNext : Obligations.PlacedWordRunsNext := by
  intro s nbits w i h
  obtain ⟨p, hd, hplace⟩ := decodeTableWord_some h
  rw [hplace]
  cases p with
  | cmd v =>
    have hc := isCommand_of_decodeCommand hd
    refine ⟨fun _ => step_placed_command hd s, fun link hi => ?_, fun link hi => ?_⟩ <;> cases hi ▸ hc
  | evt v =>
    cases hd
    cases hbit : v.getLsbD 0
    case false =>
      rw [decodeEvent_rx hbit]
      exact ⟨nofun, nofun, fun _ _ => step_placed_rx hbit s⟩
    case true =>
      rw [decodeEvent_tx hbit]
      exact ⟨nofun, fun _ _ => step_placed_tx hbit s, nofun⟩

/-! ## A command while another runs (R95, D28) -/

theorem exec_running {i : Instr} {s : State} (hc : i.isCommand = true) (hs : s.seq ≠ .idle) :
    exec i s = .fault .commandWhileRunning := by
  cases i with
  | init => rw [exec_init, command_running _ _ _ hs]
  | writeBit b => rw [exec_writeBit, command_running _ _ _ hs]
  | writeByte => rw [exec_writeByte, command_running _ _ _ hs]
  | writeAddr n => rw [exec_writeAddr, command_running _ _ _ hs]
  | readIssue n => rw [exec_readIssue, command_running _ _ _ hs]
  | readBit => rw [exec_readBit, command_running _ _ _ hs]
  | reset => rw [exec_reset, command_running _ _ _ hs]
  | searchNext => rw [exec_searchNext, command_running _ _ _ hs]
  | rxComplete link => cases hc
  | txComplete link => cases hc

theorem exec_event_completes {i : Instr} (s : State) (hc : i.isCommand = false) : ∃ t, exec i s = .next t := by
  cases i with
  | rxComplete link => exact ⟨_, exec_rxComplete link s⟩
  | txComplete link => exact ⟨_, exec_txComplete link s⟩
  | _ => cases hc

/-- Settles O18: the commands share one start, which stops; the events have none. -/
theorem commandWhileRunningStops : Obligations.CommandWhileRunningStops :=
  fun s _ hs => ⟨fun hc => exec_running hc hs, exec_event_completes s⟩

end Sys2Proof.Proofs
end

section
/-! SUPPORT. The symbol transport (40_symbol_transport.md R122 to R139): the checks its commands share, what a filled
and issued transmit writes, the moves of the two link agents, and who switches `timing` (R124). -/

namespace Sys2Proof.Proofs

open Sys2Proof.Machine Sys2Proof.Laws

/-! ## The checks of a data transfer command (R125, R126, R282) -/

section DataChecks

variable {s : State} {c : Check} {cs : List Check} {f : State → State}

theorem command_check_passed (h : c.1 = true) : command (c :: cs) f s = command cs f s := by
  obtain ⟨b, r⟩ := c
  cases h
  simp only [command, firstViolation_cons_true]

theorem command_check_failed (hs : s.seq = .idle) (h : c.1 = false) :
    command (c :: cs) f s = .next { s with fault := some (s.fault.getD c.2) } := by
  obtain ⟨b, r⟩ := c
  cases h
  rw [command_violation _ _ _ r hs (firstViolation_cons_false r cs), raise_eq]

theorem command_busy (hs : s.seq = .idle) (hf : isIdle s = false) :
    command (checkIdle s :: cs) f s = .next { s with fault := some (s.fault.getD .transportBusy) } :=
  command_check_failed (c := checkIdle s) hs hf

theorem command_resetRate (hs : s.seq = .idle) (hf : isIdle s = true) (ht : s.timing = .resetRate) :
    command [checkIdle s, checkDataRate s] f s = .next { s with fault := some (s.fault.getD .timingViolation) } := by
  have hrate : (checkDataRate s).1 = false := by simp [checkDataRate, ht]
  rw [command_check_passed (c := checkIdle s) hf]
  exact command_check_failed hs hrate

theorem command_ready (h : ReadyForData s) : command [checkIdle s, checkDataRate s] f s = .next (f s) := by
  obtain ⟨hs, hi, htx, hrx, ht⟩ := h
  obtain ⟨_, hidle, hrate⟩ := dataChecks_pass s hi htx hrx ht
  rw [hidle, hrate]
  exact command_ok _ _ _ hs rfl

end DataChecks

theorem legalCount_eq_false {n : Nat} (h : n = 0 ∨ 8 < n) : legalCount n = false := by
  rw [Bool.eq_false_iff, ne_eq, legalCount_iff]
  omega

/-! ## A filled and issued transmit (R122, R127) -/

/-- Filling and issuing a transmit of `k` symbols touches the transmit side and the counter of free values alone. -/
theorem sendSymbols_frame {syms : List Symbol} {k : Nat} (s : State) (h : syms.length = k) :
    sendSymbols syms s = { s with
      txBuf := (sendSymbols syms s).txBuf, txLen := k, txDone := false, txInflight := some k
      draws := (sendSymbols syms s).draws } := by
  subst h
  rfl

theorem sendSymbols_txBuf_getElem? {syms : List Symbol} {j : Nat} {x : Symbol} (s : State) (hj : j < 64)
    (hx : syms[j]? = some x) : (sendSymbols syms s).txBuf[j]? = some x :=
  txBufOf_getElem? syms s.draws j x hj hx

/-- `n` read slots fill the transmit buffer with `n` idle symbols (R136). -/
theorem readSlots_txBuf_getElem? {n k : Nat} (s : State) (hn : n ≤ 8) (hk : k < n) :
    (readSlots n s).txBuf[k]? = some s.params.symIdle :=
  sendSymbols_txBuf_getElem? (rxIssue n s) (by omega) (by simp [hk])

/-- `n` read slots touch the two transfers and the counter of free values alone (R128, R136). -/
theorem readSlots_frame (n : Nat) (s : State) :
    readSlots n s = { s with
      txBuf := (readSlots n s).txBuf, txLen := n, txDone := false, txInflight := some n
      rxBuf := (readSlots n s).rxBuf, rxLen := n, rxDone := false, rxInflight := some n
      draws := (readSlots n s).draws } := by
  rw [readSlots_eq]

/-! ## The commands (R130, R133, R136) -/

/-- Settles O11: the checks fail one after the other in the order of the rule, and behind them stands the transmit of
the encoded byte. -/
theorem writeByteIssuesEightSymbols : Obligations.WriteByteIssuesEightSymbols := by
  intro s hs
  unfold EndsWith
  rw [exec_writeByte]
  refine ⟨fun hi => command_not_inited hs hi, fun hi hnone => ?_, fun hi hsome hbusy => ?_,
    fun hi hsome hf ht => ?_, fun v hready hv => ?_⟩
  · have hunwritten : (checkDataIn s).1 = false := by simp [checkDataIn, hnone]
    rw [command_check_passed (c := checkInited s) hi]
    exact command_check_failed hs hunwritten
  · rw [command_check_passed (c := checkInited s) hi, command_check_passed (c := checkDataIn s) hsome,
      command_busy hs hbusy]
  · rw [command_check_passed (c := checkInited s) hi, command_check_passed (c := checkDataIn s) hsome,
      command_resetRate hs hf ht]
  · have ⟨_, hi, _⟩ := hready
    have hwritten : (checkDataIn s).1 = true := by simp [checkDataIn, hv]
    rw [command_check_passed (c := checkInited s) hi, command_check_passed hwritten, command_ready hready]
    refine ⟨_, rfl, fun b hb => sendSymbols_txBuf_getElem? s (by omega) ?_,
      sendSymbols_frame s (encodeByte_length _ _)⟩
    rw [hv]
    exact encodeByte_getElem? _ _ _ hb

/-- Settles O12: behind the count and the checks stands one transmit of the encoded address bytes. -/
theorem writeAddrIssuesOneTransfer : Obligations.WriteAddrIssuesOneTransfer := by
  intro s n hs
  unfold EndsWith
  rw [exec_writeAddr]
  refine ⟨fun hn => command_check_failed (c := checkCount n) hs (legalCount_eq_false hn), fun h1 h8 => ?_⟩
  rw [command_legalCount ((legalCount_iff n).2 ⟨h1, h8⟩)]
  refine ⟨fun hi => command_not_inited hs hi, fun hi ⟨j, hj, hnone⟩ => ?_, fun a ha => ?_⟩
  · have hunwritten : addrWritten n s = false := by
      rw [Bool.eq_false_iff, ne_eq, addrWritten_iff n s h8]
      intro hall
      obtain ⟨v, hv⟩ := hall j hj
      simp [hnone] at hv
    rw [command_check_passed (c := checkInited s) hi]
    exact command_check_failed (c := checkAddrIn n s) hs hunwritten
  · have hwritten : addrWritten n s = true := (addrWritten_iff n s h8).2 fun j hj => ⟨a j, ha j hj⟩
    refine ⟨fun hi hbusy => ?_, fun hi hf ht => ?_, fun hready => ?_⟩
    · rw [command_check_passed (c := checkInited s) hi, command_check_passed (c := checkAddrIn n s) hwritten,
        command_busy hs hbusy]
    · rw [command_check_passed (c := checkInited s) hi, command_check_passed (c := checkAddrIn n s) hwritten,
        command_resetRate hs hf ht]
    · have ⟨_, hi, _⟩ := hready
      rw [command_check_passed (c := checkInited s) hi, command_check_passed (c := checkAddrIn n s) hwritten,
        command_ready hready]
      refine ⟨_, rfl, fun j b hj hb => sendSymbols_txBuf_getElem? s (by omega) ?_, sendSymbols_frame s ?_⟩
      · exact encodeBytes_getElem? _ _ _ _ _ hb (addrBytes_getElem? n j s (a j) hj (ha j hj))
      · rw [encodeBytes_length, addrBytes_length n s h8]

/-- Settles O13: behind the count and the checks stand `n` read slots. -/
theorem readIssueArmsReceive : Obligations.ReadIssueArmsReceive := by
  intro s n hs
  unfold EndsWith
  rw [exec_readIssue]
  refine ⟨fun hn => command_check_failed (c := checkCount n) hs (legalCount_eq_false hn), fun h1 h8 => ?_⟩
  rw [command_legalCount ((legalCount_iff n).2 ⟨h1, h8⟩)]
  refine ⟨fun hi => command_not_inited hs hi, fun hi hbusy => ?_, fun hi hf ht => ?_, fun hready => ?_⟩
  · rw [command_check_passed (c := checkInited s) hi, command_busy hs hbusy]
  · rw [command_check_passed (c := checkInited s) hi, command_resetRate hs hf ht]
  · have ⟨_, hi, _⟩ := hready
    rw [command_check_passed (c := checkInited s) hi, command_ready hready]
    exact ⟨_, rfl, fun k hk => readSlots_txBuf_getElem? s h8 hk, readSlots_frame n s⟩

/-! ## The link agents (R138, R139) -/

theorem linkTxStep_none {s : State} (h : s.txInflight = none) : linkTxStep s = s := by
  simp only [linkTxStep, h]

theorem linkRxStep_none {s : State} (h : s.rxInflight = none) : linkRxStep s = s := by
  simp only [linkRxStep, h]

theorem landSymbols_getElem?_landed {syms : List Symbol} {k : Nat} (buf : Vector Symbol 8) (hk : k < syms.length)
    (h8 : k < 8) : (landSymbols syms buf)[k]? = syms[k]? := by
  simp [landSymbols, h8, hk]

theorem landSymbols_getElem?_kept {syms : List Symbol} {k : Nat} (buf : Vector Symbol 8) (hk : syms.length ≤ k) :
    (landSymbols syms buf)[k]? = buf[k]? := by
  by_cases h8 : k < 8
  · simp [landSymbols, h8, List.getElem?_eq_none hk]
  · simp [h8]

/-- Settles O22: the turn is the receiver's, and the oracle answers a receive of `n` with `n` symbols. -/
theorem linkReceiverLands : Obligations.LinkReceiverLands := by
  intro s n ts hturns
  rw [step_of_turn s .linkRx ts hturns]
  refine ⟨fun hn h8 => ?_, fun hnone => congrArg Host.Outcome.next (linkRxStep_none hnone)⟩
  have hlength : (busReadSymbols s.params s.bus s.wire n).1.length = n := busReadSymbols_length _ _ _ _
  have hstep := linkRxStep_some { s with turns := ts } n _ _ hn rfl
  refine ⟨_, rfl, hlength, _, congrArg Host.Outcome.next hstep, fun k hk => ?_, fun k hk => ?_, rfl⟩
  · exact landSymbols_getElem?_landed s.rxBuf (hlength.symm ▸ hk) (by omega)
  · exact landSymbols_getElem?_kept s.rxBuf (hlength.symm ▸ hk)

/-- Settles O21: the turn is the transmitter's, and it sends the first `k` entries of the buffer. -/
theorem linkTransmitterSends : Obligations.LinkTransmitterSends := by
  intro s k ts hturns
  rw [step_of_turn s .linkTx ts hturns]
  refine ⟨fun hk h64 => ?_, fun hnone => congrArg Host.Outcome.next (linkTxStep_none hnone)⟩
  refine ⟨s.txBuf.toList.take k, by simp [h64], fun j hj => ?_,
    congrArg Host.Outcome.next (linkTxStep_some { s with turns := ts } k hk)⟩
  rw [List.getElem?_take_of_lt hj, Vector.getElem?_toList]

/-! ## Who switches the timing (R124) -/

theorem firstStep_timing {s t : State} {i : Instr} (hm : FirstStep s i t) :
    i = .init ∨ i = .reset ∨ i = .searchNext ∨ t.timing = s.timing := by
  cases hm with
  | init => exact .inl rfl
  | reset => exact .inr (.inl rfl)
  | search => exact .inr (.inr (.inl rfl))
  | marked | send | slots | readBit => exact .inr (.inr (.inr rfl))

theorem phaseMove_timing {s t : State} (hm : PhaseMove s t) :
    s.seq = .rsWait ∨ s.seq = .sReset ∨ t.timing = s.timing := by
  cases hm with
  | resetAnswered hs => exact .inl hs
  | searchAbsent hs | searchExhausted hs | searchPresent hs => exact .inr (.inl hs)
  | _ => exact .inr (.inr rfl)

/-- The places where R124 lets `timing` change: a reset exchange ends, or the word of `INIT`, `RESET` or `SEARCH_NEXT`
is presented. -/
def MaySwitchTiming (s : State) : Prop :=
  s.seq = .rsWait ∨ s.seq = .sReset ∨
    (s.seq = .idle ∧ ∃ ops, s.program = .command 0x10#8 :: ops ∨ s.program = .command 0x70#8 :: ops ∨
      s.program = .command 0x80#8 :: ops)

theorem move_timing {s t : State} (hm : Move s t) : MaySwitchTiming s ∨ t.timing = s.timing := by
  cases hm with
  | host hf => rw [hf.frame]; exact .inr rfl
  | @command _ i w ops hs hp hd hi =>
    obtain ⟨_, hinit, hreset, hsearch⟩ := decodeCommand_facts w i (by simp [hd, Except.toOption])
    obtain h | h | h | hsame := firstStep_timing hi
    · exact .inl (.inr (.inr ⟨hs, ops, .inl (hinit h ▸ hp)⟩))
    · exact .inl (.inr (.inr ⟨hs, ops, .inr (.inl (hreset h ▸ hp))⟩))
    · exact .inl (.inr (.inr ⟨hs, ops, .inr (.inr (hsearch h ▸ hp))⟩))
    · exact .inr hsame
  | phase hs hp =>
    obtain h | h | hsame := phaseMove_timing hp
    · exact .inl (.inl h)
    · exact .inl (.inr (.inl h))
    · exact .inr hsame
  | sent hk => rw [linkTxStep_some s _ hk]; exact .inr rfl
  | landed hn => rw [linkRxStep_some s _ _ _ hn rfl]; exact .inr rfl
  | txDelivered | rxDelivered | txWord | rxWord => exact .inr rfl

/-- Settles O46: a step is one move, and a move anywhere else keeps `timing`. -/
theorem onlyResetSwitchesTiming : Obligations.OnlyResetSwitchesTiming := by
  intro s t hstep hchanged
  obtain ⟨ts, n, hm⟩ := step_move hstep
  exact (move_timing hm).resolve_right hchanged

end Sys2Proof.Proofs
end

section
/-! SUPPORT. The command `RESET` (41_reset_presence.md R151 to R157): its start, the classification of the bus's answer,
and the two steps of the machine that make a whole one. -/

namespace Sys2Proof.Proofs

open Sys2Proof.Machine Sys2Proof.Laws

/-! ## The start of the exchange (R151 to R153) -/

/-- The two checks of a command that starts a reset exchange pass at either timing. -/
theorem command_inited_idle {f : State → State} {s : State} (hs : s.seq = .idle) (hi : s.inited = true)
    (hf : isIdle s = true) : command [checkInited s, checkIdle s] f s = .next (f s) := by
  rw [command_check_passed (c := checkInited s) hi, command_check_passed (c := checkIdle s) hf]
  exact command_ok [] f s hs firstViolation_nil

theorem exec_reset_starts {s : State} (hs : s.seq = .idle) (hi : s.inited = true) (hf : isIdle s = true) :
    exec .reset s = .next { s with timing := .resetRate, seq := .rsWait } := by
  rw [exec_reset, command_inited_idle hs hi hf]
  rfl

/-- Settles O15: the checks fail one after the other, and behind them stands the start of the exchange. -/
theorem resetStartsExchange : Obligations.ResetStartsExchange := by
  intro s hs
  unfold EndsWith
  refine ⟨fun hi => ?_, fun hi hbusy => ?_, exec_reset_starts hs⟩
  · rw [exec_reset, command_not_inited hs hi]
  · rw [exec_reset, command_check_passed (c := checkInited s) hi, command_busy hs hbusy]

/-! ## The classification of the answer (R154, R155) -/

@[simp] theorem classifyEcho_none (p : Params) : classifyEcho p none = .timeout := rfl

@[simp] theorem classifyEcho_symReset (p : Params) : classifyEcho p (some p.symReset) = .noChange := if_pos rfl

theorem classifyEcho_of_ne {p : Params} {x : Symbol} (h : x ≠ p.symReset) : classifyEcho p (some x) = .ok := if_neg h

theorem classifyEcho_eq_timeout_iff {p : Params} {e : Option Symbol} : classifyEcho p e = .timeout ↔ e = none := by
  cases e with
  | none => simp
  | some x =>
    by_cases h : x = p.symReset
    · simp [h]
    · simp [classifyEcho_of_ne h]

/-- Presence is any echo other than the transmitted symbol. -/
theorem classifyEcho_eq_ok_iff {p : Params} {e : Option Symbol} :
    classifyEcho p e = .ok ↔ ∃ x, e = some x ∧ x ≠ p.symReset := by
  cases e with
  | none => simp
  | some x =>
    by_cases h : x = p.symReset
    · simp [h]
    · simp [classifyEcho_of_ne h, h]

/-- The state in which `RESET` returns when the link answers `e`. -/
theorem phaseStep_rsWait {s : State} {e : Option Symbol} {b : Bus} (hs : s.seq = .rsWait)
    (he : busResetEcho s.params s.bus s.wire = (e, b)) :
    phaseStep s = { s with
      bus := b, wire := s.wire ++ [.wReset s.params.symReset e], rPresence := classifyEcho s.params e
      timing := if classifyEcho s.params e = .ok then .dataRate else s.timing, seq := .idle } := by
  simp only [phaseStep, hs, resetPhase, finishReset, resetOutcome, he]

/-- Settles O19: one case for each of the three answers. -/
theorem resetClassifiesEcho : Obligations.ResetClassifiesEcho := by
  intro s e b hs he
  refine ⟨_, _, phaseStep_rsWait hs he, ?_, ?_, ?_⟩
  · rintro rfl
    simp
  · rintro rfl
    simp
  · rintro x rfl hne
    simp [classifyEcho_of_ne hne]

/-! ## A whole `RESET` (R151, R155 to R157) -/

/-- The host's word starts the exchange; the sequencer's turn after it takes the link's answer. -/
theorem run_reset {s : State} {e : Option Symbol} {b : Bus} {ts : List Turn} {ops : List HostOp} (hs : s.seq = .idle)
    (hi : s.inited = true) (hf : isIdle s = true) (he : busResetEcho s.params s.bus s.wire = (e, b))
    (ht : s.turns = .polling :: .polling :: ts) (hp : s.program = .command 0x70#8 :: ops) :
    Sys2Proof.core.run 2 s = .next { s with
      turns := ts, program := ops, bus := b, wire := s.wire ++ [.wReset s.params.symReset e]
      rPresence := classifyEcho s.params e
      timing := if classifyEcho s.params e = .ok then .dataRate else .resetRate, seq := .idle } := by
  have hpresented :=
    (stepRunsPresentedCommand s 0x70#8 .reset _ ops hs ht hp rfl).trans (exec_reset_starts hs hi hf)
  have hanswered := (stepRunsSequencerWhileBlocked
    { s with turns := .polling :: ts, program := ops, timing := .resetRate, seq := .rsWait } ts nofun rfl).1.trans
    (congrArg Host.Outcome.next (phaseStep_rsWait rfl he))
  rw [run_succ 1 hpresented, run_succ 0 hanswered]
  rfl

/-- Settles O20: the run's last state is known, and each clause about the outcome is read off the classification. -/
theorem resetRunsToItsOutcome : Obligations.ResetRunsToItsOutcome := by
  intro s e b ts ops hs hi hf he ht hp
  refine ⟨_, run_reset hs hi hf he ht hp, rfl, hf, rfl, rfl, rfl, classifyEcho_eq_ok_iff,
    classifyEcho_eq_timeout_iff, ?_⟩
  by_cases hok : classifyEcho s.params e = .ok <;> simp [hok]

end Sys2Proof.Proofs
end

section
/-! SUPPORT. The bit primitives (42_bit_primitives.md R165 to R171): the checks that `READ_BIT` and `WRITE_BIT` share,
the hold and the return of `READ_BIT`, and the steps of the machine that make a whole one. -/

namespace Sys2Proof.Proofs

open Sys2Proof.Machine Sys2Proof.Laws

/-! ## The checks of a bit primitive (R166, R170, R282) -/

/-- Of the three checks the first that fails is the one reported. -/
theorem command_dataChecks_fail (f : State → State) {s : State} (hs : s.seq = .idle) :
    (s.inited = false → command [checkInited s, checkIdle s, checkDataRate s] f s =
      .next { s with fault := some (s.fault.getD .notInitialised) }) ∧
    (s.inited = true → isIdle s = false → command [checkInited s, checkIdle s, checkDataRate s] f s =
      .next { s with fault := some (s.fault.getD .transportBusy) }) ∧
    (s.inited = true → isIdle s = true → s.timing = .resetRate →
      command [checkInited s, checkIdle s, checkDataRate s] f s =
        .next { s with fault := some (s.fault.getD .timingViolation) }) := by
  refine ⟨fun hi => command_not_inited hs hi, fun hi hbusy => ?_, fun hi hf ht => ?_⟩
  · rw [command_check_passed (c := checkInited s) hi, command_busy hs hbusy]
  · rw [command_check_passed (c := checkInited s) hi, command_resetRate hs hf ht]

theorem command_dataChecks_pass (f : State → State) {s : State} (h : ReadyForData s) :
    command [checkInited s, checkIdle s, checkDataRate s] f s = .next (f s) := by
  have ⟨_, hi, _⟩ := h
  rw [command_check_passed (c := checkInited s) hi, command_ready h]

/-- The first step of `READ_BIT` issues one read slot and starts to wait (R166). -/
theorem exec_readBit_issues {s : State} (h : ReadyForData s) :
    exec .readBit s = .next { readSlots 1 s with seq := .rbWait } :=
  (exec_readBit s).trans (command_dataChecks_pass _ h)

/-- Settles O10: behind the three checks stands the transmit of the one symbol of the bit. -/
theorem writeBitIssuesOneSymbol : Obligations.WriteBitIssuesOneSymbol := by
  intro s b hs
  obtain ⟨huninited, hbusy, hrate⟩ := command_dataChecks_fail (fun s => sendSymbols [encodeBit s.params b] s) hs
  refine ⟨huninited, hbusy, hrate, fun hready => ?_⟩
  exact ⟨_, (exec_writeBit b s).trans (command_dataChecks_pass _ hready),
    sendSymbols_txBuf_getElem? s (by decide) rfl, sendSymbols_frame s rfl⟩

/-! ## The hold of `READ_BIT` and its return (R166 to R168) -/

theorem phaseStep_rbWait_holds {s : State} (hs : s.seq = .rbWait) (hr : s.rxDone = false) : phaseStep s = s := by
  simp [phaseStep, hs, readBitPhase, hr]

theorem phaseStep_rbWait_returns {s : State} {x : Symbol} (hs : s.seq = .rbWait) (hr : s.rxDone = true)
    (hx : s.rxBuf[0]? = some x) :
    phaseStep s = { s with rBit := decide (x = s.params.symIdle), seq := .idle } := by
  obtain ⟨_, rfl⟩ := Vector.getElem?_eq_some_iff.1 hx
  simp only [phaseStep, hs, readBitPhase, hr, if_true, decodeSym_eq]

/-- Settles O14: behind the three checks stands one read slot, and `RB_WAIT` turns on `rx_done` alone. -/
theorem readBitIssuesHoldsReturns : Obligations.ReadBitIssuesHoldsReturns := by
  intro s
  refine ⟨fun hs => ?_, fun hs => ⟨phaseStep_rbWait_holds hs, fun x => phaseStep_rbWait_returns hs⟩⟩
  obtain ⟨huninited, hbusy, hrate⟩ := command_dataChecks_fail (fun s => { readSlots 1 s with seq := .rbWait }) hs
  refine ⟨huninited, hbusy, hrate, fun hready => ?_⟩
  have hsymbol : (readSlots 1 s).txBuf[0]? = some s.params.symIdle :=
    readSlots_txBuf_getElem? s (by decide) Nat.one_pos
  refine ⟨_, exec_readBit_issues hready, hsymbol, ?_⟩
  rw [readSlots_eq]

/-! ## The way out of `RB_WAIT` (R167, R312) -/

theorem phaseMove_rbWait {s t : State} (hm : PhaseMove s t) (hs : s.seq = .rbWait) :
    t.seq = .rbWait ∨ (s.rxDone = true ∧ t.seq = .idle) := by
  cases hm with
  | hold => exact .inl hs
  | bitRead _ hr => exact .inr ⟨hr, rfl⟩
  | timingViolated h => rw [hs] at h; cases h
  | resetAnswered h | searchAbsent h | searchExhausted h | searchPresent h | searchCommand h | idSlot h | idLatched h
  | cmpSlot h | cmpLatched h | conflict h | decided h | writeBack h | finished h => cases hs.symm.trans h

/-- Only the sequencer moves `seq` away from `RB_WAIT`. -/
theorem move_rbWait {s t : State} (hm : Move s t) (hs : s.seq = .rbWait) :
    t.seq = .rbWait ∨ (s.rxDone = true ∧ t.seq = .idle) := by
  cases hm with
  | host hf => rw [hf.frame]; exact .inl hs
  | command hidle => cases hs.symm.trans hidle
  | phase _ hp => exact phaseMove_rbWait hp hs
  | sent hk => rw [linkTxStep_some s _ hk]; exact .inl hs
  | landed hn => rw [linkRxStep_some s _ _ _ hn rfl]; exact .inl hs
  | txDelivered | rxDelivered | txWord | rxWord => exact .inl hs

/-- Settles O51: a step is one move, and a move that leaves `RB_WAIT` is the return. -/
theorem readBitNeverReturnsEarly : Obligations.ReadBitNeverReturnsEarly := by
  intro s t hstep hs hleft
  obtain ⟨ts, n, hm⟩ := step_move hstep
  exact (move_rbWait hm hs).resolve_left hleft

/-! ## A whole `READ_BIT` (R139, R166, R168, R215) -/

theorem step_linkRx_lands {s : State} {n : Nat} {syms : List Symbol} {b : Bus} {ts : List Turn}
    (ht : s.turns = .linkRx :: ts) (hn : s.rxInflight = some n)
    (hb : busReadSymbols s.params s.bus s.wire n = (syms, b)) :
    step s = .next { s with
      turns := ts, rxBuf := landSymbols syms s.rxBuf, wire := s.wire ++ [.wRx s.timing syms], bus := b
      rxInflight := none, rxPending := s.boundLink } := by
  rw [step_of_turn s .linkRx ts ht]
  exact congrArg Host.Outcome.next (linkRxStep_some { s with turns := ts } n syms b hn hb)

theorem step_rxEvent_delivers {s : State} {link : Link} {ts : List Turn} (ht : s.turns = .rxEvent :: ts)
    (hp : s.rxPending = some link) (hm : linkMatches link s = true) :
    step s = .next { s with turns := ts, rxPending := none, rxDone := true } := by
  rw [step_of_turn s .rxEvent ts ht]
  exact deliverRx_some { s with turns := ts } link hp hm

theorem step_rbWait_returns {s : State} {x : Symbol} {ts : List Turn} (hs : s.seq = .rbWait)
    (ht : s.turns = .polling :: ts) (hr : s.rxDone = true) (hx : s.rxBuf[0]? = some x) :
    step s = .next { s with turns := ts, rBit := decide (x = s.params.symIdle), seq := .idle } := by
  have hrunning : s.seq ≠ .idle := by simp [hs]
  rw [(stepRunsSequencerWhileBlocked s ts hrunning ht).1]
  exact congrArg Host.Outcome.next (phaseStep_rbWait_returns (s := { s with turns := ts }) hs hr hx)

/-- The host's word issues the read slot, the link answers it, the completion is delivered, and the sequencer's next
turn returns the bit; the transmit side stays as the issue left it. -/
theorem run_readBit {s : State} {link : Link} {x : Symbol} {b : Bus} {ts : List Turn} {ops : List HostOp}
    (hready : ReadyForData s) (hl : s.boundLink = some link)
    (hb : busReadSymbols s.params s.bus s.wire 1 = ([x], b))
    (ht : s.turns = .polling :: .linkRx :: .rxEvent :: .polling :: ts) (hp : s.program = .command 0x60#8 :: ops) :
    Sys2Proof.core.run 4 s = .next { readSlots 1 s with
      turns := ts, program := ops, rxBuf := landSymbols [x] (readSlots 1 s).rxBuf
      wire := s.wire ++ [.wRx s.timing [x]], bus := b, rxInflight := none, rxPending := none, rxDone := true
      rBit := decide (x = s.params.symIdle), seq := .idle } := by
  have ⟨hs, hi, _⟩ := hready
  have hmatches : linkMatches link s = true := by simp [linkMatches, hi, hl]
  have hissued := (stepRunsPresentedCommand s 0x60#8 .readBit _ ops hs ht hp rfl).trans (exec_readBit_issues hready)
  have hlanded : ∀ buf : Vector Symbol 8, (landSymbols [x] buf)[0]? = some x :=
    fun buf => landSymbols_getElem?_landed buf Nat.one_pos (by decide)
  calc Sys2Proof.core.run 4 s
    _ = _ := run_succ 3 hissued
    _ = _ := run_succ 2 (step_linkRx_lands rfl rfl hb)
    _ = _ := run_succ 1 (step_rxEvent_delivers rfl hl hmatches)
    _ = _ := run_succ 0 (step_rbWait_returns rfl rfl rfl (hlanded _))
    _ = _ := rfl

/-- Settles O24: the run's last state is known, and the scripted bus answers with its next symbol. -/
theorem readBitRunsToItsBit : Obligations.ReadBitRunsToItsBit := by
  intro s link x es xs ts ops hready hl hbus ht hp
  have ⟨_, _, _, _, hrate⟩ := hready
  have hread : busReadSymbols s.params s.bus s.wire 1 = ([x], .scripted es xs) := by
    rw [hbus, busReadSymbols_scripted_one]
  refine ⟨_, run_readBit hready hl hread ht hp, rfl, rfl, rfl, rfl, rfl, ?_, ?_, rfl, rfl⟩
  · exact landSymbols_getElem?_landed _ Nat.one_pos (by decide)
  · rw [hrate]

end Sys2Proof.Proofs
end

section
/-! SUPPORT. The phases of `SEARCH_NEXT` (43_rom_search.md R182 to R194): its start, the three ways out of `S_RESET`,
the transfers it issues and holds for, the bits it takes, the decision at an index and the end of a pass. -/

namespace Sys2Proof.Proofs

open Sys2Proof.Machine Sys2Proof.Laws

/-! ## The start of the command (R182, R183) -/

theorem exec_searchNext_starts {s : State} (hs : s.seq = .idle) (hi : s.inited = true) (hf : isIdle s = true) :
    exec .searchNext s = .next { s with timing := .resetRate, seq := .sReset } := by
  rw [exec_searchNext, command_inited_idle hs hi hf]
  rfl

/-- Settles O16: the checks fail one after the other, and behind them stands the start of the exchange. -/
theorem searchStartsWithReset : Obligations.SearchStartsWithReset := by
  intro s hs
  unfold EndsWith
  refine ⟨fun hi => ?_, fun hi hbusy => ?_, exec_searchNext_starts hs⟩
  · rw [exec_searchNext, command_not_inited hs hi]
  · rw [exec_searchNext, command_check_passed (c := checkInited s) hi, command_busy hs hbusy]

/-! ## The reset phase (R184, R185) -/

theorem resetOutcome_eq {s : State} {e : Option Symbol} {b : Bus}
    (he : busResetEcho s.params s.bus s.wire = (e, b)) : resetOutcome s = classifyEcho s.params e := by
  simp only [resetOutcome, he]

theorem finishReset_eq {s : State} {e : Option Symbol} {b : Bus}
    (he : busResetEcho s.params s.bus s.wire = (e, b)) :
    finishReset s = { s with
      bus := b, wire := s.wire ++ [.wReset s.params.symReset e], rPresence := classifyEcho s.params e
      timing := if classifyEcho s.params e = .ok then .dataRate else s.timing } := by
  simp only [finishReset, resetOutcome_eq he, he]

theorem phaseStep_sReset_absent {s : State} (hs : s.seq = .sReset) (ho : resetOutcome s ≠ .ok) :
    phaseStep s = searchFalse { restartSearch (finishReset s) with
      rRom := resultRomFree (finishReset s).draws, draws := (finishReset s).draws + 1 } := by
  simp only [phaseStep, hs, sResetPhase, ho, if_false]

theorem phaseStep_sReset_exhausted {s : State} (hs : s.seq = .sReset) (ho : resetOutcome s = .ok)
    (hd : s.lastDeviceFlag = true) : phaseStep s = searchFalse (finishReset s) := by
  simp only [phaseStep, hs, sResetPhase, ho, finishReset_lastDeviceFlag, hd, if_true]

theorem phaseStep_sReset_present {s : State} (hs : s.seq = .sReset) (ho : resetOutcome s = .ok)
    (hd : s.lastDeviceFlag = false) : phaseStep s = { finishReset s with seq := .sCmd } := by
  simp only [phaseStep, hs, sResetPhase, ho, finishReset_lastDeviceFlag, hd, if_true, Bool.false_eq_true, if_false]

/-- Settles O25: neither answer is classified as presence, so the reset phase takes its way out for absence. -/
theorem searchAbortsOnAbsence : Obligations.SearchAbortsOnAbsence := by
  intro s e b hs he habsent
  have hclass : classifyEcho s.params e = if e = none then .timeout else .noChange := by
    obtain rfl | rfl := habsent <;> simp
  have hne : classifyEcho s.params e ≠ .ok := by rw [hclass]; split <;> nofun
  refine ⟨resultRomFree s.draws, s.draws + 1, ?_⟩
  rw [phaseStep_sReset_absent hs (resetOutcome_eq he ▸ hne), finishReset_eq he, if_neg hne, hclass]
  rfl

/-- Settles O26: any other answer is presence, and the flag alone says whether the search goes on. -/
theorem searchExhaustionKeepsState : Obligations.SearchExhaustionKeepsState := by
  intro s x b hs he hx
  have hok := classifyEcho_of_ne hx
  have ho : resetOutcome s = .ok := (resetOutcome_eq he).trans hok
  have hanswered := finishReset_eq he
  rw [if_pos hok, hok] at hanswered
  refine ⟨fun hd => ?_, fun hd => ?_⟩
  · rw [phaseStep_sReset_exhausted hs ho hd, hanswered]
    rfl
  · rw [phaseStep_sReset_present hs ho hd, hanswered]

/-! ## The transfers of a search (R186 to R188, R193) -/

theorem searchIssue_busy (body : State → State) (next : Phase) {s : State} (hf : isIdle s = false) :
    searchIssue body next s = s := by
  simp [searchIssue, hf]

theorem phaseStep_sCmd {s : State} (hs : s.seq = .sCmd) (hf : isIdle s = true) (ht : s.timing = .dataRate) :
    phaseStep s = { sendSymbols (encodeByte s.params s.params.cmdSearchRom) s with
      i := 1, lastZero := 0, seq := .sIdIssue } := by
  simp only [phaseStep, hs, sCmdPhase, searchIssue_ok _ _ s hf ht]

/-- The phase that issues a read slot and the phase that takes its bit. -/
def SlotPhases (p q : Phase) : Prop := (p = .sIdIssue ∧ q = .sIdRx) ∨ (p = .sCmpIssue ∧ q = .sCmpRx)

theorem phaseStep_slot {s : State} {p q : Phase} (hpq : SlotPhases p q) (hs : s.seq = p) (hf : isIdle s = true)
    (ht : s.timing = .dataRate) : phaseStep s = { readSlots 1 s with seq := q } := by
  obtain ⟨rfl, rfl⟩ | ⟨rfl, rfl⟩ := hpq
  · simp only [phaseStep, hs, sIdIssuePhase, searchIssue_ok _ _ s hf ht]
  · simp only [phaseStep, hs, sCmpIssuePhase, searchIssue_ok _ _ s hf ht]

theorem phaseStep_sDir {s : State} (hs : s.seq = .sDir) (hf : isIdle s = true) (ht : s.timing = .dataRate) :
    phaseStep s = { sendSymbols [encodeBit s.params s.dir] s with
      i := if s.i < 64 then s.i + 1 else s.i, seq := if s.i < 64 then .sIdIssue else .sFinish } := by
  simp only [phaseStep, hs, sDirPhase, searchIssue_ok _ _ s hf ht]

theorem phaseStep_issuing_busy {s : State}
    (hs : s.seq = .sCmd ∨ s.seq = .sIdIssue ∨ s.seq = .sCmpIssue ∨ s.seq = .sDir) (hf : isIdle s = false) :
    phaseStep s = s := by
  obtain hs | hs | hs | hs := hs <;> simp only [phaseStep, hs]
  · exact searchIssue_busy _ _ hf
  · exact searchIssue_busy _ _ hf
  · exact searchIssue_busy _ _ hf
  · exact searchIssue_busy _ _ hf

theorem phaseStep_receiving_holds {s : State} (hs : s.seq = .sIdRx ∨ s.seq = .sCmpRx) (hr : s.rxDone = false) :
    phaseStep s = s := by
  obtain hs | hs := hs
  · simp [phaseStep, hs, sIdRxPhase, hr]
  · simp [phaseStep, hs, sCmpRxPhase, hr]

/-- Settles O27: the issuing phases share one hold, and the receiving phases turn on `rx_done`. -/
theorem searchHoldsForCompletions : Obligations.SearchHoldsForCompletions :=
  fun _ => ⟨phaseStep_issuing_busy, phaseStep_receiving_holds⟩

/-- Settles O28: the phase sends the encoded command byte. -/
theorem searchSendsCommandByte : Obligations.SearchSendsCommandByte := by
  intro s hs hf ht
  have hlen := encodeByte_length s.params s.params.cmdSearchRom
  refine ⟨_, phaseStep_sCmd hs hf ht, fun b hb => ?_, ?_⟩
  · exact sendSymbols_txBuf_getElem? s (by omega) (encodeByte_getElem? _ _ _ hb)
  · rw [sendSymbols_frame s hlen]

/-- Settles O32: the phase sends the one symbol of the direction. -/
theorem searchWritesBackDirection : Obligations.SearchWritesBackDirection := by
  intro s hs hf ht
  have hsymbol : (sendSymbols [encodeBit s.params s.dir] s).txBuf[0]? = some (bitSymbol s.params s.dir) :=
    sendSymbols_txBuf_getElem? s (by decide) rfl
  refine ⟨_, phaseStep_sDir hs hf ht, hsymbol, ?_⟩
  rw [sendSymbols_frame (k := 1) s rfl]

/-! ## The bits of an index (R186, R189) -/

theorem phaseStep_sIdRx {s : State} {x : Symbol} (hs : s.seq = .sIdRx) (hr : s.rxDone = true)
    (hx : s.rxBuf[0]? = some x) : phaseStep s = { s with idB := decodeSym s.params x, seq := .sCmpIssue } := by
  obtain ⟨_, rfl⟩ := Vector.getElem?_eq_some_iff.1 hx
  simp only [phaseStep, hs, sIdRxPhase, hr, if_true]

theorem phaseStep_sCmpRx {s : State} {x : Symbol} (hs : s.seq = .sCmpRx) (hr : s.rxDone = true)
    (hx : s.rxBuf[0]? = some x) : phaseStep s = { s with cmpB := decodeSym s.params x, seq := .sDecide } := by
  obtain ⟨_, rfl⟩ := Vector.getElem?_eq_some_iff.1 hx
  simp only [phaseStep, hs, sCmpRxPhase, hr, if_true]

/-- Settles O29: both slots are one read slot, and both bits are the received symbol decoded. -/
theorem searchReadsBitAndComplement : Obligations.SearchReadsBitAndComplement := by
  refine fun s => ⟨fun p q hpq hs hf ht => ?_, fun x hr hx => ?_⟩
  · have hsymbol : (readSlots 1 s).txBuf[0]? = some s.params.symIdle :=
      readSlots_txBuf_getElem? s (by decide) Nat.one_pos
    refine ⟨_, phaseStep_slot hpq hs hf ht, hsymbol, ?_⟩
    rw [readSlots_eq]
  · rw [← decodeSym_eq]
    exact ⟨fun hs => phaseStep_sIdRx hs hr hx, fun hs => phaseStep_sCmpRx hs hr hx⟩

/-! ## The decision (R189 to R193) -/

theorem phaseStep_sDecide_conflict {s : State} (hs : s.seq = .sDecide) (ha : s.idB = true) (hb : s.cmpB = true) :
    phaseStep s = searchFalse { restartSearch s with
      lastRom := lastRomFree s.draws, rRom := resultRomFree s.draws, draws := s.draws + 1 } := by
  simp only [phaseStep, hs, sDecidePhase, ha, hb, Bool.and_self, if_true]

/-- Settles O30: the phase's false return, with the free values it draws. -/
theorem searchConflictRestarts : Obligations.SearchConflictRestarts :=
  fun _ hs ha hb => ⟨_, _, _, phaseStep_sDecide_conflict hs ha hb⟩

theorem phaseStep_sDecide_direction {s : State} (hs : s.seq = .sDecide) (hc : ¬(s.idB = true ∧ s.cmpB = true)) :
    phaseStep s = { s with
      dir := direction s, lastZero := nextLastZero s
      romWork := setIdBit s.romWork s.i (direction s), seq := .sDir } := by
  simp only [phaseStep, hs, sDecidePhase, Bool.and_eq_true, hc, if_false]

theorem direction_common {s : State} (h : s.idB ≠ s.cmpB) : direction s = s.idB := by
  simp [direction, h]

theorem direction_discrepancy {s : State} (ha : s.idB = false) (hb : s.cmpB = false) :
    direction s = chooseDir s.i s.lastDiscrepancy (idBit s.lastRom s.i) := by
  simp [direction, ha, hb]

/-- The tie-break replays the prior bit below `last_discrepancy`, is 1 at it and 0 above it (R191). -/
theorem chooseDir_cases (i ld : Nat) (prior : Bool) :
    (i < ld → chooseDir i ld prior = prior) ∧ (i = ld → chooseDir i ld prior = true) ∧
      (ld < i → chooseDir i ld prior = false) := by
  refine ⟨fun h => if_pos h, fun h => ?_, fun h => ?_⟩
  · rw [chooseDir, if_neg (by omega), if_pos h]
  · rw [chooseDir, if_neg (by omega), if_neg (by omega)]

/-- Without a conflict, two equal bits are two zeros (R192). -/
theorem nextLastZero_eq {s : State} (hc : ¬(s.idB = true ∧ s.cmpB = true)) :
    nextLastZero s = if s.idB = false ∧ s.cmpB = false ∧ direction s = false then s.i else s.lastZero := by
  have hzeros : (s.idB = s.cmpB ∧ direction s = false) ↔ (s.idB = false ∧ s.cmpB = false ∧ direction s = false) := by
    cases ha : s.idB <;> cases hb : s.cmpB <;> simp_all
  simp only [nextLastZero, hzeros]

/-- Settles O31: the direction by the two cases of its definition, and the identity bit by O34. -/
theorem searchChoosesDirection : Obligations.SearchChoosesDirection := by
  intro s hs hc h1 h64
  obtain ⟨_, hwritten⟩ := identityBitWrittenReadsBack s.romWork s.i (direction s) h1 h64
  refine ⟨direction s, setIdBit s.romWork s.i (direction s), ?_, direction_common, fun ha hb => ?_, ?_,
    fun j hj hj64 hne => ?_⟩
  · rw [phaseStep_sDecide_direction hs hc, nextLastZero_eq hc]
  · rw [direction_discrepancy ha hb]
    exact chooseDir_cases _ _ _
  · rw [hwritten s.i h1 h64, if_pos rfl]
  · rw [hwritten j hj hj64, if_neg hne]

/-! ## The end of a pass (R194) -/

theorem phaseStep_sFinish {s : State} (hs : s.seq = .sFinish) : phaseStep s = sFinishPhase s := by
  simp only [phaseStep, hs]

/-- Settles O33: the flag is set when `last_zero` is 0 and keeps its value otherwise. -/
theorem searchFinishesPass : Obligations.SearchFinishesPass := by
  intro s hs
  have hflag : (s.lastDeviceFlag || s.lastZero == 0) = if s.lastZero = 0 then true else s.lastDeviceFlag := by
    by_cases hz : s.lastZero = 0 <;> simp [hz]
  rw [phaseStep_sFinish hs, sFinishPhase, hflag]

end Sys2Proof.Proofs
end

section
/-! SUPPORT. A whole `SEARCH_NEXT` on the schedule `searchTurns`, over any bus (43_rom_search.md R181, R186 to R194):
one turn or one transfer, one identity bit, the pass, and the scripted bus. The states of a run are known but for the
unspecified symbols of the buffers and the counter of free values. -/

namespace Sys2Proof.Proofs

open Sys2Proof.Machine Sys2Proof.Laws

/-! ## Transfers that complete before the sequencer's next turn (R138, R139) -/

theorem run_one {s t : State} (h : step s = .next t) : Sys2Proof.core.run 1 s = .next t := run_succ 0 h

theorem run_trans {s t u : State} {n m : Nat} (h₁ : Sys2Proof.core.run n s = .next t)
    (h₂ : Sys2Proof.core.run m t = .next u) : Sys2Proof.core.run (n + m) s = .next u :=
  (run_add n m h₁).trans h₂

section Transfers

variable {s : State} {link : Link} {ts : List Turn}

theorem run_phase {p : Phase} {t : State} (hs : s.seq = p) (hp : p ≠ .idle) (ht : s.turns = .polling :: ts)
    (hphase : phaseStep { s with turns := ts } = t) : Sys2Proof.core.run 1 s = .next t :=
  run_one (hphase ▸ (stepRunsSequencerWhileBlocked s ts (hs ▸ hp) ht).1)

theorem step_linkTx_sends {k : Nat} (ht : s.turns = .linkTx :: ts) (hk : s.txInflight = some k) :
    step s = .next { s with
      turns := ts, wire := s.wire ++ [.wTx s.timing (s.txBuf.toList.take k)], txInflight := none
      txPending := s.boundLink } := by
  rw [step_of_turn s .linkTx ts ht]
  exact congrArg Host.Outcome.next (linkTxStep_some { s with turns := ts } k hk)

theorem step_txEvent_delivers (ht : s.turns = .txEvent :: ts) (hp : s.txPending = some link)
    (hm : linkMatches link s = true) : step s = .next { s with turns := ts, txPending := none, txDone := true } := by
  rw [step_of_turn s .txEvent ts ht]
  exact deliverTx_some { s with turns := ts } link hp hm

/-- The transmitter sends the buffer's first `k` symbols, and its completion is delivered. -/
theorem run_transmit {k : Nat} {syms : List Symbol} {w : List WireEvent} (ht : s.turns = .linkTx :: .txEvent :: ts)
    (hk : s.txInflight = some k) (hi : s.inited = true) (hl : s.boundLink = some link)
    (hsyms : s.txBuf.toList.take k = syms) (hw : s.wire ++ [.wTx s.timing syms] = w) :
    Sys2Proof.core.run 2 s = .next { s with
      turns := ts, wire := w, txInflight := none, txPending := none, txDone := true } := by
  subst hsyms hw
  have hmatches : linkMatches link s = true := by simp [linkMatches, hi, hl]
  exact run_trans (run_one (step_linkTx_sends ht hk)) (run_one (step_txEvent_delivers rfl hl hmatches))

/-- The receiver lands the bus's symbols, and its completion is delivered. -/
theorem run_receive {n : Nat} {syms : List Symbol} {b : Bus} {w : List WireEvent}
    (ht : s.turns = .linkRx :: .rxEvent :: ts) (hn : s.rxInflight = some n) (hi : s.inited = true)
    (hl : s.boundLink = some link) (hb : busReadSymbols s.params s.bus s.wire n = (syms, b))
    (hw : s.wire ++ [.wRx s.timing syms] = w) :
    Sys2Proof.core.run 2 s = .next { s with
      turns := ts, rxBuf := landSymbols syms s.rxBuf, wire := w, bus := b
      rxInflight := none, rxPending := none, rxDone := true } := by
  subst hw
  have hmatches : linkMatches link s = true := by simp [linkMatches, hi, hl]
  exact run_trans (run_one (step_linkRx_lands ht hn hb)) (run_one (step_rxEvent_delivers rfl hl hmatches))

end Transfers

/-- The state in which the sequencer stands at `q` with every transfer completed, the last one of each direction of one
symbol. -/
def afterTransfers (tb : Vector Symbol 64) (rb : Vector Symbol 8) (n : Nat) (ts : List Turn) (w : List WireEvent)
    (b : Bus) (q : Phase) (s : State) : State :=
  { s with
    turns := ts, wire := w, bus := b, seq := q, draws := n
    txBuf := tb, txLen := 1, txDone := true, txInflight := none, txPending := none
    rxBuf := rb, rxLen := 1, rxDone := true, rxInflight := none, rxPending := none }

/-! ## One identity bit (R186 to R193) -/

/-- What holds between two turns of the sequencer in a search on this schedule. -/
structure Searching (link : Link) (s : State) : Prop where
  inited : s.inited = true
  bound : s.boundLink = some link
  flags : isIdle s = true
  rate : s.timing = .dataRate
  program : s.program = []

/-- The transmit of a read slot, as the bus sees it. -/
def slotEvent (p : Params) : WireEvent := .wTx .dataRate [p.symIdle]

/-- What the two read slots of an index, answered `x` and `y`, put on the wire. -/
def readEvents (p : Params) (x y : Symbol) : List WireEvent :=
  [slotEvent p, .wRx .dataRate [x], slotEvent p, .wRx .dataRate [y]]

/-- What a whole index puts on the wire: its read slots and the write-back of `d`. -/
def bitEvents (p : Params) (x y : Symbol) (d : Bool) : List WireEvent :=
  readEvents p x y ++ [.wTx .dataRate [encodeBit p d]]

/-- The bus answers the two read slots of an index with `x` and `y`. -/
def ReadsPair (p : Params) (bus : Bus) (wire : List WireEvent) (x y : Symbol) (bus' : Bus) : Prop :=
  ∃ between, busReadSymbols p bus (wire ++ [slotEvent p]) 1 = ([x], between) ∧
    busReadSymbols p between (wire ++ [slotEvent p, .wRx .dataRate [x], slotEvent p]) 1 = ([y], bus')

/-- The state in which both bits of an index have been taken. -/
def afterReads (tb : Vector Symbol 64) (rb : Vector Symbol 8) (n : Nat) (ts : List Turn) (x y : Symbol) (b : Bus)
    (s : State) : State :=
  { afterTransfers tb rb n ts (s.wire ++ readEvents s.params x y) b .sDecide s with
    idB := decodeSym s.params x, cmpB := decodeSym s.params y }

/-- The state after an index at which `d` was written back. -/
def afterBit (tb : Vector Symbol 64) (rb : Vector Symbol 8) (n : Nat) (ts : List Turn) (x y : Symbol) (d : Bool)
    (b : Bus) (s : State) : State :=
  { afterReads tb rb n ts x y b s with
    wire := s.wire ++ bitEvents s.params x y d, dir := d, romWork := setIdBit s.romWork s.i d
    lastZero := if decodeSym s.params x = false ∧ decodeSym s.params y = false ∧ d = false then s.i else s.lastZero
    i := if s.i < 64 then s.i + 1 else s.i, seq := if s.i < 64 then .sIdIssue else .sFinish }

/-- A direction is defined exactly without a conflict, and it is the one the phase decides on (R189, R191). -/
theorem pureDir_eq (s : State) : pureDir s.lastDiscrepancy s.lastRom s.i s.idB s.cmpB =
    if s.idB = true ∧ s.cmpB = true then none else some (direction s) := by
  cases ha : s.idB <;> cases hb : s.cmpB <;> simp [pureDir, direction, ha, hb]

theorem pureDir_eq_some {s : State} {d : Bool}
    (h : pureDir s.lastDiscrepancy s.lastRom s.i s.idB s.cmpB = some d) :
    ¬(s.idB = true ∧ s.cmpB = true) ∧ direction s = d := by
  rw [pureDir_eq] at h
  split at h
  · cases h
  next hc => exact ⟨hc, Option.some.inj h⟩

theorem pureDir_eq_none {ld i : Nat} {prior : Rom} {a b : Bool} (h : pureDir ld prior i a b = none) :
    a = true ∧ b = true := by
  cases a <;> cases b <;> simp [pureDir] at h ⊢

section Bit

variable {s : State} {link : Link} {ts : List Turn}

/-- A read slot runs to its completion: the symbol the bus answers stands at the head of the receive buffer. -/
theorem run_slot {p q : Phase} {x : Symbol} {b : Bus} {w : List WireEvent} (h : Searching link s)
    (hpq : SlotPhases p q) (hs : s.seq = p) (ht : s.turns = .polling :: slotTurns ++ ts)
    (hb : busReadSymbols s.params s.bus (s.wire ++ [slotEvent s.params]) 1 = ([x], b))
    (hw : s.wire ++ [slotEvent s.params, .wRx .dataRate [x]] = w) :
    ∃ tb rb n, rb[0]? = some x ∧ Sys2Proof.core.run 5 s = .next (afterTransfers tb rb n ts w b q s) := by
  have hp : p ≠ .idle := by obtain ⟨rfl, _⟩ | ⟨rfl, _⟩ := hpq <;> nofun
  have hissued : phaseStep { s with turns := slotTurns ++ ts } = _ := phaseStep_slot hpq hs h.flags h.rate
  have hsent : s.wire ++ [.wTx s.timing [s.params.symIdle]] = s.wire ++ [slotEvent s.params] := by
    rw [h.rate, slotEvent]
  have hlanded : s.wire ++ [slotEvent s.params] ++ [.wRx s.timing [x]] = w := by
    rw [h.rate, List.append_assoc, ← hw]
    rfl
  exact ⟨_, _, _, landSymbols_getElem?_landed _ Nat.one_pos (by decide),
    run_trans (run_phase hs hp ht hissued)
      (run_trans (run_transmit rfl rfl h.inited h.bound (txBufOf_take _ _ (by simp)) hsent)
        (run_receive rfl rfl h.inited h.bound hb hlanded))⟩

/-- Both slots of an index and the two bits taken from them. -/
theorem run_readPair {x y : Symbol} {b : Bus} (h : Searching link s) (hs : s.seq = .sIdIssue)
    (ht : s.turns = .polling :: slotTurns ++ (.polling :: .polling :: slotTurns ++ .polling :: ts))
    (hread : ReadsPair s.params s.bus s.wire x y b) :
    ∃ tb rb n, Sys2Proof.core.run 12 s = .next (afterReads tb rb n ts x y b s) := by
  obtain ⟨between, hx, hy⟩ := hread
  obtain ⟨tb₁, rb₁, n₁, hrb₁, hid⟩ := run_slot h (.inl ⟨rfl, rfl⟩) hs ht hx rfl
  obtain ⟨tb₂, rb₂, n₂, hrb₂, hcmp⟩ := run_slot (link := link) (x := y) (b := b)
    (w := s.wire ++ readEvents s.params x y) (q := .sCmpRx) (ts := .polling :: ts)
    (s := { afterTransfers tb₁ rb₁ n₁ (.polling :: slotTurns ++ .polling :: ts)
      (s.wire ++ [slotEvent s.params, .wRx .dataRate [x]]) between .sCmpIssue s with idB := decodeSym s.params x })
    ⟨h.inited, h.bound, rfl, h.rate, h.program⟩ (.inr ⟨rfl, rfl⟩) rfl rfl
    ((congrArg (busReadSymbols s.params between · 1) (List.append_assoc ..)).trans hy) (List.append_assoc ..)
  exact ⟨tb₂, rb₂, n₂, run_trans hid (run_trans (run_phase rfl nofun rfl (phaseStep_sIdRx rfl rfl hrb₁))
    (run_trans hcmp (run_phase rfl nofun rfl (phaseStep_sCmpRx rfl rfl hrb₂))))⟩

/-- The direction is decided and written back. -/
theorem run_writeBack {d : Bool} {w : List WireEvent} (h : Searching link s) (hs : s.seq = .sDecide)
    (hd : pureDir s.lastDiscrepancy s.lastRom s.i s.idB s.cmpB = some d)
    (ht : s.turns = .polling :: .polling :: .linkTx :: .txEvent :: ts)
    (hw : s.wire ++ [.wTx .dataRate [encodeBit s.params d]] = w) :
    ∃ tb n, Sys2Proof.core.run 4 s = .next { s with
      turns := ts, wire := w, txBuf := tb, txLen := 1, txDone := true, txInflight := none, txPending := none, draws := n
      dir := d, lastZero := if s.idB = false ∧ s.cmpB = false ∧ d = false then s.i else s.lastZero
      romWork := setIdBit s.romWork s.i d
      i := if s.i < 64 then s.i + 1 else s.i, seq := if s.i < 64 then .sIdIssue else .sFinish } := by
  obtain ⟨hc, rfl⟩ := pureDir_eq_some hd
  have hsent : s.wire ++ [.wTx s.timing [encodeBit s.params (direction s)]] = w := by rw [h.rate, hw]
  rw [← nextLastZero_eq hc]
  exact ⟨_, _, run_trans (run_phase hs nofun ht (phaseStep_sDecide_direction hs hc))
    (run_trans (run_phase rfl nofun rfl (phaseStep_sDir rfl h.flags h.rate))
      (run_transmit rfl rfl h.inited h.bound (txBufOf_take _ _ (by simp)) hsent))⟩

/-- One identity bit without a conflict, on its schedule. -/
theorem run_bit {x y : Symbol} {d : Bool} {b : Bus} (h : Searching link s) (hs : s.seq = .sIdIssue)
    (ht : s.turns = bitTurns ++ ts) (hread : ReadsPair s.params s.bus s.wire x y b)
    (hd : pureDir s.lastDiscrepancy s.lastRom s.i (decodeSym s.params x) (decodeSym s.params y) = some d) :
    ∃ tb rb n, Sys2Proof.core.run 16 s = .next (afterBit tb rb n ts x y d b s) := by
  obtain ⟨tb₁, rb, n₁, hpair⟩ := run_readPair h hs ht hread
  obtain ⟨tb₂, n₂, hback⟩ := run_writeBack (link := link) (ts := ts)
    (s := afterReads tb₁ rb n₁ (.polling :: .polling :: .linkTx :: .txEvent :: ts) x y b s)
    ⟨h.inited, h.bound, rfl, h.rate, h.program⟩ rfl hd rfl (List.append_assoc ..)
  exact ⟨tb₂, rb, n₂, run_trans hpair hback⟩

end Bit

/-! ## After the command's return -/

/-- No command runs, the host has nothing to do, and no transfer is in flight and no event pending. -/
structure AtRest (s : State) : Prop where
  seq : s.seq = .idle
  program : s.program = []
  txInflight : s.txInflight = none
  rxInflight : s.rxInflight = none
  txPending : s.txPending = none
  rxPending : s.rxPending = none

/-- A turn that brings nothing in from outside: no event word of another cause and no tick. -/
def isInternal : Turn → Bool
  | .polling => true
  | .linkTx => true
  | .linkRx => true
  | .txEvent => true
  | .rxEvent => true
  | .event _ => false
  | .tick => false

theorem step_atRest {s : State} {u : Turn} {ts : List Turn} (h : AtRest s) (hu : isInternal u = true)
    (ht : s.turns = u :: ts) : step s = .next { s with turns := ts } := by
  rw [step_of_turn s u ts ht]
  cases u with
  | polling => simp only [agentStep, pollingStep, h.seq, if_true, hostStep, h.program]
  | linkTx => exact congrArg Host.Outcome.next (linkTxStep_none h.txInflight)
  | linkRx => exact congrArg Host.Outcome.next (linkRxStep_none h.rxInflight)
  | txEvent => simp only [agentStep, deliverTx, h.txPending]
  | rxEvent => simp only [agentStep, deliverRx, h.rxPending]
  | event w => cases hu
  | tick => cases hu

theorem run_atRest {us ts : List Turn} {s : State} (h : AtRest s) (hus : us.all isInternal = true)
    (ht : s.turns = us ++ ts) : Sys2Proof.core.run us.length s = .next { s with turns := ts } := by
  induction us generalizing s with
  | nil =>
    obtain rfl : ts = s.turns := ht.symm
    rfl
  | cons u us ih =>
    obtain ⟨hu, hus⟩ : isInternal u = true ∧ us.all isInternal = true := by simpa using hus
    rw [List.length_cons, run_succ _ (step_atRest h hu ht)]
    exact ih (s := { s with turns := us ++ ts }) { h with } hus rfl

/-! ## The pass (R181, R189 to R194) -/

/-- What the pass leaves in the search state and the result registers: the identity and `last_zero` it computed, or the
false return of a conflict (R190, R194). -/
def PassResult (t : State) : Option (Rom × Nat) → Prop
  | some (rom, lz) =>
    t.rOk = true ∧ t.rRom = rom ∧ t.lastRom = rom ∧ t.lastDiscrepancy = lz ∧ t.lastDeviceFlag = decide (lz = 0)
  | none => t.rOk = false ∧ t.lastDiscrepancy = 0 ∧ t.lastDeviceFlag = false

/-- A pass that started in `s` has returned in `t`. -/
structure PassReturns (s t : State) (computed : Option (Rom × Nat)) : Prop where
  seq : t.seq = .idle
  presence : t.rPresence = s.rPresence
  fault : t.fault = s.fault
  timing : t.timing = s.timing
  result : PassResult t computed

/-- A conflict returns at once and leaves the machine at rest (R190). -/
theorem run_conflict {s : State} {ts : List Turn} (hs : s.seq = .sDecide) (ha : s.idB = true) (hb : s.cmpB = true)
    (hrest : AtRest { s with seq := .idle }) (ht : s.turns = .polling :: ts) :
    ∃ t, Sys2Proof.core.run 1 s = .next t ∧ AtRest t ∧ t.turns = ts ∧ PassReturns s t none :=
  ⟨_, run_phase hs nofun ht (phaseStep_sDecide_conflict hs ha hb), { hrest with }, rfl,
    { seq := rfl, presence := rfl, fault := rfl, timing := rfl, result := ⟨rfl, rfl, rfl⟩ }⟩

/-- An index with a conflict: the turns left of its schedule find the machine at rest. -/
theorem run_bit_conflict {s : State} {link : Link} {ts : List Turn} {x y : Symbol} {b : Bus} (h : Searching link s)
    (hs : s.seq = .sIdIssue) (ht : s.turns = bitTurns ++ ts) (hread : ReadsPair s.params s.bus s.wire x y b)
    (hd : pureDir s.lastDiscrepancy s.lastRom s.i (decodeSym s.params x) (decodeSym s.params y) = none) :
    ∃ t, Sys2Proof.core.run 16 s = .next t ∧ AtRest t ∧ t.turns = ts ∧ PassReturns s t none := by
  obtain ⟨ha, hb⟩ := pureDir_eq_none hd
  obtain ⟨tb, rb, n, hpair⟩ := run_readPair h hs ht hread
  obtain ⟨t, hconflict, hstill, hturns, hret⟩ := run_conflict
    (s := afterReads tb rb n (.polling :: .polling :: .linkTx :: .txEvent :: ts) x y b s)
    rfl ha hb ⟨rfl, h.program, rfl, rfl, rfl, rfl⟩ rfl
  have hwait := run_atRest (us := [.polling, .linkTx, .txEvent]) hstill rfl hturns
  exact ⟨_, run_trans hpair (run_trans hconflict hwait), { hstill with }, rfl, { hret with }⟩

/-- The turns of the last `k` identity bits and of the end of the pass. -/
def passTurns (k : Nat) : List Turn := (List.replicate k bitTurns).flatten ++ [.polling]

theorem passTurns_succ (k : Nat) : passTurns (k + 1) = bitTurns ++ passTurns k := by
  rw [passTurns, List.replicate_succ, List.flatten_cons, List.append_assoc, passTurns]

theorem passTurns_internal (k : Nat) : (passTurns k).all isInternal = true := by
  induction k with
  | zero => rfl
  | succ k ih => rw [passTurns_succ, List.all_append, ih]; rfl

/-- The sequencer stands at index `i` with `k` bits to go. -/
def AtIndex (i : Nat) (s : State) : Nat → Prop
  | 0 => s.seq = .sFinish
  | k + 1 => s.seq = .sIdIssue ∧ s.i = i ∧ i + k = 64

/-- The bus answers the read slots from index `i` on with symbols that decode to these pairs of bits, whatever the
direction bits the pass writes in between. -/
def BusAnswers (p : Params) (ld : Nat) (prior : Rom) : Nat → Bus → List WireEvent → List (Bool × Bool) → Prop
  | _, _, _, [] => True
  | i, bus, wire, (a, b) :: rest =>
    ∃ x y bus', decodeSym p x = a ∧ decodeSym p y = b ∧ ReadsPair p bus wire x y bus' ∧
      ∀ d, pureDir ld prior i a b = some d → BusAnswers p ld prior (i + 1) bus' (wire ++ bitEvents p x y d) rest

/-- After an index below 64 the next one follows, after index 64 the end of the pass (R193). -/
theorem atIndex_next {i k : Nat} (s : State) (hlast : i + k = 64) (hi : s.i = if i < 64 then i + 1 else i)
    (hs : s.seq = if i < 64 then .sIdIssue else .sFinish) : AtIndex (i + 1) s k := by
  cases k with
  | zero => rw [if_neg (by omega)] at hs; exact hs
  | succ k =>
    have hlt : i < 64 := by omega
    rw [if_pos hlt] at hi hs
    exact ⟨hs, hi, by omega⟩

theorem purePass_conflict {ld i : Nat} {prior : Rom} {a b : Bool} (rom : Rom) (lz : Nat) (rest : List (Bool × Bool))
    (hd : pureDir ld prior i a b = none) : purePass ld prior i rom lz ((a, b) :: rest) = none := by
  simp only [purePass, hd]

theorem purePass_direction {ld i : Nat} {prior : Rom} {a b d : Bool} (rom : Rom) (lz : Nat)
    (rest : List (Bool × Bool)) (hd : pureDir ld prior i a b = some d) :
    purePass ld prior i rom lz ((a, b) :: rest) =
      purePass ld prior (i + 1) (setIdBit rom i d) (if a = false ∧ b = false ∧ d = false then i else lz) rest := by
  simp only [purePass, hd]

/-- What a search puts on the wire before its first identity bit: the reset exchange, answered `x`, and the command
byte. -/
def startEvents (p : Params) (x : Symbol) : List WireEvent :=
  [.wReset p.symReset (some x), .wTx .dataRate (encodeByte p p.cmdSearchRom)]

/-- The state in which a search stands before its first identity bit. -/
def afterStart (tb : Vector Symbol 64) (n : Nat) (ts : List Turn) (x : Symbol) (b : Bus) (s : State) : State :=
  { s with
    turns := ts, program := [], bus := b, wire := s.wire ++ startEvents s.params x, rPresence := .ok
    timing := .dataRate, txBuf := tb, txLen := 8, txDone := true, txInflight := none, txPending := none, draws := n
    i := 1, lastZero := 0, seq := .sIdIssue }

section Pass

variable {link : Link} {ts : List Turn}

/-- From index `i` on the run computes the pass of the bits the bus answers: each index goes on to the next one, or ends
the pass in a conflict, after which the schedule's other turns change nothing. -/
theorem run_pass {pairs : List (Bool × Bool)} {i : Nat} {s : State} (h : Searching link s)
    (hflag : s.lastDeviceFlag = false) (hat : AtIndex i s pairs.length)
    (hbus : BusAnswers s.params s.lastDiscrepancy s.lastRom i s.bus s.wire pairs)
    (ht : s.turns = passTurns pairs.length ++ ts) :
    ∃ t, Sys2Proof.core.run (passTurns pairs.length).length s = .next t ∧
      PassReturns s t (purePass s.lastDiscrepancy s.lastRom i s.romWork s.lastZero pairs) := by
  induction pairs generalizing i s with
  | nil =>
    have hset : (s.lastDeviceFlag || s.lastZero == 0) = decide (s.lastZero = 0) := by
      simp [hflag, Bool.beq_eq_decide_eq]
    exact ⟨_, run_phase hat nofun ht (phaseStep_sFinish hat),
      { seq := rfl, presence := rfl, fault := rfl, timing := rfl, result := ⟨rfl, rfl, rfl, rfl, hset⟩ }⟩
  | cons ab rest ih =>
    obtain ⟨a₀, b₀⟩ := ab
    obtain ⟨hs, rfl, hlast⟩ := hat
    obtain ⟨x, y, b, rfl, rfl, hread, hrest⟩ := hbus
    rw [List.length_cons, passTurns_succ, List.append_assoc] at ht
    rw [List.length_cons, passTurns_succ, List.length_append]
    cases hd : pureDir s.lastDiscrepancy s.lastRom s.i (decodeSym s.params x) (decodeSym s.params y) with
    | none =>
      obtain ⟨t, hrun, hstill, hturns, hret⟩ := run_bit_conflict h hs ht hread hd
      rw [purePass_conflict _ _ _ hd]
      exact ⟨_, run_trans hrun (run_atRest hstill (passTurns_internal _) hturns), { hret with }⟩
    | some d =>
      obtain ⟨tb, rb, n, hrun⟩ := run_bit h hs ht hread hd
      rw [purePass_direction _ _ _ hd]
      obtain ⟨t, hpass, hret⟩ := ih (i := s.i + 1) (s := afterBit tb rb n (passTurns rest.length ++ ts) x y d b s)
        ⟨h.inited, h.bound, rfl, h.rate, h.program⟩ hflag (atIndex_next _ hlast rfl rfl) (hrest d hd) rfl
      exact ⟨t, run_trans hrun hpass, { hret with }⟩

/-- The answered reset exchange and the search command, up to the first identity bit (R183 to R188). -/
theorem run_searchStart {s : State} {x : Symbol} {b : Bus} (hs : s.seq = .idle) (hi : s.inited = true)
    (hf : isIdle s = true) (hl : s.boundLink = some link) (hflag : s.lastDeviceFlag = false)
    (hx : x ≠ s.params.symReset) (he : busResetEcho s.params s.bus s.wire = (some x, b))
    (hp : s.program = [.command 0x80#8])
    (ht : s.turns = .polling :: .polling :: .polling :: .linkTx :: .txEvent :: ts) :
    ∃ tb n, Sys2Proof.core.run 5 s = .next (afterStart tb n ts x b s) := by
  have hpresented := (stepRunsPresentedCommand s 0x80#8 .searchNext _ [] hs ht hp rfl).trans
    (exec_searchNext_starts hs hi hf)
  have hanswered := (searchExhaustionKeepsState { s with
    turns := .polling :: .linkTx :: .txEvent :: ts, program := [], timing := .resetRate, seq := .sReset }
    x b rfl he hx).2 hflag
  have hlen := encodeByte_length s.params s.params.cmdSearchRom
  have hsyms := fun n => txBufOf_take (encodeByte s.params s.params.cmdSearchRom) n (by omega)
  have hcommand := run_phase (ts := .linkTx :: .txEvent :: ts) (s := { s with
      turns := .polling :: .linkTx :: .txEvent :: ts, program := [], bus := b, rPresence := .ok, timing := .dataRate
      wire := s.wire ++ [.wReset s.params.symReset (some x)], seq := .sCmd }) rfl nofun rfl (phaseStep_sCmd rfl hf rfl)
  have hsent := run_trans hcommand (run_transmit rfl rfl hi hl (hsyms _) (List.append_assoc ..))
  exact ⟨_, _, run_trans (run_trans (run_one hpresented) (run_phase rfl nofun rfl hanswered)) hsent⟩

/-- A whole `SEARCH_NEXT` on its schedule computes the pass of the bits the bus answers (R181). -/
theorem run_search {s : State} {x : Symbol} {b : Bus} {pairs : List (Bool × Bool)} (hs : s.seq = .idle)
    (hi : s.inited = true) (hf : isIdle s = true) (hl : s.boundLink = some link) (hflag : s.lastDeviceFlag = false)
    (hx : x ≠ s.params.symReset) (he : busResetEcho s.params s.bus s.wire = (some x, b))
    (hp : s.program = [.command 0x80#8]) (ht : s.turns = searchTurns ++ ts) (h64 : pairs.length = 64)
    (hbus : BusAnswers s.params s.lastDiscrepancy s.lastRom 1 b (s.wire ++ startEvents s.params x) pairs) :
    ∃ t, Sys2Proof.core.run searchTurns.length s = .next t ∧
      PassReturns { s with rPresence := .ok, timing := .dataRate } t
        (purePass s.lastDiscrepancy s.lastRom 1 s.romWork 0 pairs) := by
  have hturns : searchTurns = [.polling, .polling, .polling, .linkTx, .txEvent] ++ passTurns pairs.length := by
    rw [h64, passTurns, ← List.append_assoc, searchTurns]
  rw [hturns, List.append_assoc] at ht
  obtain ⟨tb, n, hstart⟩ := run_searchStart hs hi hf hl hflag hx he hp ht
  obtain ⟨t, hpass, hret⟩ := run_pass (i := 1) (s := afterStart tb n (passTurns pairs.length ++ ts) x b s)
    ⟨hi, hl, ((isIdle_iff s).1 hf).2, rfl, rfl⟩ hflag (h64.symm ▸ ⟨rfl, rfl, rfl⟩) hbus rfl
  rw [hturns, List.length_append]
  exact ⟨t, run_trans hstart hpass, { hret with }⟩

end Pass

/-! ## The scripted bus -/

/-- The scripted bus answers an index with the next two symbols of its list. -/
theorem readsPair_scripted (p : Params) (es : List (Option Symbol)) (x y : Symbol) (xs : List Symbol)
    (wire : List WireEvent) : ReadsPair p (.scripted es (x :: y :: xs)) wire x y (.scripted es xs) :=
  ⟨_, busReadSymbols_scripted_one .., busReadSymbols_scripted_one ..⟩

theorem busAnswers_scripted {p : Params} (hp : paramsOk p = true) (ld : Nat) (prior : Rom) (i : Nat)
    (es : List (Option Symbol)) (xs : List Symbol) (wire : List WireEvent) (pairs : List (Bool × Bool)) :
    BusAnswers p ld prior i (.scripted es (pairSymbols p pairs ++ xs)) wire pairs := by
  induction pairs generalizing i wire with
  | nil => exact trivial
  | cons ab rest ih =>
    exact ⟨_, _, _, decodeSym_encodeBit p hp ab.1, decodeSym_encodeBit p hp ab.2, readsPair_scripted ..,
      fun _ _ => ih ..⟩

/-- Settles O35: the scripted bus answers the given pairs, and the run computes their pass. -/
theorem searchRunComputesThePass : Obligations.SearchRunComputesThePass := by
  intro s link x es xs pairs ts hok hs hi hf hl hflag hx h64 hbus hp ht
  have he : busResetEcho s.params s.bus s.wire = (some x, .scripted es (pairSymbols s.params pairs ++ xs)) := by
    rw [hbus]
    rfl
  obtain ⟨t, hrun, hret⟩ := run_search hs hi hf hl hflag hx he hp ht h64 (busAnswers_scripted hok ..)
  exact ⟨t, hrun, hret.seq, hret.presence, hret.fault, hret.timing, hret.result⟩

end Sys2Proof.Proofs
end

section
/-! SUPPORT. `SEARCH_NEXT` over the reference wired-AND bus (43_rom_search.md R198; 95_test_vectors.md 2.0; log entry
31): what the bus reads off the wire, which devices still take part, and the identity they lead the pass to. -/

namespace Sys2Proof.Proofs

open Sys2Proof.Machine Sys2Proof.Laws

/-! ## The wire since the reset exchange -/

theorem sinceReset_append (wire : List WireEvent) {es : List WireEvent} (h : ∀ e ∈ es, (!isReset e) = true) :
    sinceReset (wire ++ es) = sinceReset wire ++ es := by
  have hrev : ∀ e ∈ es.reverse, (!isReset e) = true := fun e he => h e (List.mem_reverse.1 he)
  simp only [sinceReset, List.reverse_append, List.takeWhile_append_of_pos hrev, List.reverse_reverse]

theorem sinceReset_wReset (wire : List WireEvent) (sent : Symbol) (echo : Option Symbol) :
    sinceReset (wire ++ [.wReset sent echo]) = [] := by
  simp [sinceReset, isReset]

theorem transmits_append (h₁ h₂ : List WireEvent) : transmits (h₁ ++ h₂) = transmits h₁ ++ transmits h₂ := by
  induction h₁ with
  | nil => rfl
  | cons e h₁ ih => cases e <;> simp [transmits, ih]

theorem receiveCount_append (h₁ h₂ : List WireEvent) :
    receiveCount (h₁ ++ h₂) = receiveCount h₁ + receiveCount h₂ := by
  induction h₁ with
  | nil => simp [receiveCount]
  | cons e h₁ ih =>
    cases e with
    | wRx => simp only [List.cons_append, receiveCount, ih]; omega
    | wReset | wTx => simp only [List.cons_append, receiveCount, ih]

/-- The one-symbol transmits of the indexes at which these directions were written. -/
def slotsOf (p : Params) (dirs : List Bool) : List (List Symbol) :=
  dirs.flatMap fun d => [[p.symIdle], [p.symIdle], [encodeBit p d]]

/-- Since the last reset exchange the wire holds the search command and the indexes at which these directions were
written. -/
structure SearchHistory (p : Params) (wire : List WireEvent) (dirs : List Bool) : Prop where
  sent : transmits (sinceReset wire) = encodeByte p p.cmdSearchRom :: slotsOf p dirs
  received : receiveCount (sinceReset wire) = 2 * dirs.length

theorem thirds_slotsOf_append (p : Params) (dirs : List Bool) (rest : List (List Symbol)) :
    thirds (slotsOf p dirs ++ rest) = dirs.map (fun d => [encodeBit p d]) ++ thirds rest := by
  induction dirs with
  | nil => rfl
  | cons d dirs ih => exact congrArg ([encodeBit p d] :: ·) ih

/-- The directions written back are read off the wire again, given distinct symbols (R8). -/
theorem writtenDirs_slotsOf_append {p : Params} (hp : paramsOk p = true) (dirs : List Bool)
    {rest : List (List Symbol)} (hrest : thirds rest = []) : writtenDirs p (slotsOf p dirs ++ rest) = dirs := by
  rw [writtenDirs, thirds_slotsOf_append, hrest, List.append_nil, List.map_map]
  simp [Function.comp_def, decodeSym_encodeBit p hp]

section Wire

variable {p : Params} {wire : List WireEvent} {dirs : List Bool}

/-- The search command right after a reset exchange begins the history. -/
theorem searchHistory_start (p : Params) (wire : List WireEvent) (x : Symbol) :
    SearchHistory p (wire ++ startEvents p x) [] := by
  have h := sinceReset_append (wire ++ [.wReset p.symReset (some x)])
    (es := [.wTx .dataRate (encodeByte p p.cmdSearchRom)]) (by simp [isReset])
  rw [sinceReset_wReset, List.append_assoc] at h
  exact ⟨congrArg transmits h, congrArg receiveCount h⟩

/-- One more index on the wire. -/
theorem SearchHistory.bit (h : SearchHistory p wire dirs) (x y : Symbol) (d : Bool) :
    SearchHistory p (wire ++ bitEvents p x y d) (dirs ++ [d]) := by
  have hsince := sinceReset_append wire (es := bitEvents p x y d) (by simp [bitEvents, readEvents, slotEvent, isReset])
  constructor
  · rw [hsince, transmits_append, h.sent]
    simp [bitEvents, readEvents, slotEvent, transmits, slotsOf]
  · rw [hsince, receiveCount_append, h.received]
    simp [bitEvents, readEvents, slotEvent, receiveCount]; omega

/-! ## The bus's answers -/

/-- The devices that agree with every direction written so far. -/
def participants (devices : List Rom) (dirs : List Bool) : List Rom := devices.filter fun r => agrees r 1 dirs

/-- Released when every driver releases, driven otherwise. -/
def wiredSym (p : Params) (released : Bool) : Symbol := if released then p.symIdle else drivenSym p

theorem drivenSym_ne (p : Params) : drivenSym p ≠ p.symIdle := by
  simp [drivenSym]

theorem decodeSym_wiredSym (p : Params) (released : Bool) : decodeSym p (wiredSym p released) = released := by
  cases released
  · simp [decodeSym, wiredSym, drivenSym_ne]
  · simp [decodeSym, wiredSym]

/-- With no write-back since the last index, the number of reads since then says whether the slot reads the bit or its
complement. -/
theorem wiredAndSlot_search (hp : paramsOk p = true) (h : SearchHistory p wire dirs) (devices : List Rom)
    {es : List WireEvent} (hes : ∀ e ∈ es, (!isReset e) = true) (hback : thirds (transmits es) = [])
    (hcount : receiveCount es < 2) :
    wiredAndSlot p devices (wire ++ es) = some (wiredSym p (
      if receiveCount es = 0 then (participants devices dirs).all fun r => idBit r (dirs.length + 1)
      else (participants devices dirs).all fun r => !idBit r (dirs.length + 1))) := by
  have hsent : transmits (sinceReset (wire ++ es)) =
      encodeByte p p.cmdSearchRom :: (slotsOf p dirs ++ transmits es) := by
    rw [sinceReset_append wire hes, transmits_append, h.sent, List.cons_append]
  have hreceived : receiveCount (sinceReset (wire ++ es)) = 2 * dirs.length + receiveCount es := by
    rw [sinceReset_append wire hes, receiveCount_append, h.received]
  have hindex : (2 * dirs.length + receiveCount es) / 2 = dirs.length := by omega
  have hparity : (2 * dirs.length + receiveCount es) % 2 = receiveCount es := by omega
  have hdirs := writtenDirs_slotsOf_append hp dirs hback
  by_cases hfirst : receiveCount es = 0
  · simp only [wiredAndSlot, hsent, hreceived, hindex, hparity, hdirs, List.take_length, if_true, if_pos hfirst,
      participants, wiredSym]
  · simp only [wiredAndSlot, hsent, hreceived, hindex, hparity, hdirs, List.take_length, if_true, if_neg hfirst,
      participants, wiredSym]

theorem busReadSymbols_wiredAnd {devices : List Rom} {x : Symbol} (h : wiredAndSlot p devices wire = some x) :
    busReadSymbols p (.wiredAnd devices) wire 1 = ([x], .wiredAnd devices) := by
  simp only [busReadSymbols, h]

/-- The first read slot of an index reads its bit, the second the complement. -/
theorem readsPair_wiredAnd (hp : paramsOk p = true) (h : SearchHistory p wire dirs) (devices : List Rom) :
    ReadsPair p (.wiredAnd devices) wire
      (wiredSym p ((participants devices dirs).all fun r => idBit r (dirs.length + 1)))
      (wiredSym p ((participants devices dirs).all fun r => !idBit r (dirs.length + 1))) (.wiredAnd devices) :=
  ⟨_, busReadSymbols_wiredAnd (wiredAndSlot_search hp h devices (by simp [slotEvent, isReset]) rfl Nat.two_pos),
    busReadSymbols_wiredAnd (wiredAndSlot_search hp h devices (by simp [slotEvent, isReset]) rfl Nat.one_lt_two)⟩

end Wire

/-! ## The devices that take part -/

theorem agrees_append (r : Rom) (i : Nat) (dirs : List Bool) (d : Bool) :
    agrees r i (dirs ++ [d]) = (agrees r i dirs && (idBit r (i + dirs.length) == d)) := by
  induction dirs generalizing i with
  | nil => simp [agrees]
  | cons c dirs ih =>
    have hi : i + 1 + dirs.length = i + (dirs.length + 1) := by omega
    simp [agrees, ih, hi, Bool.and_assoc]

/-- To agree is to have each direction as the identity bit of its index. -/
theorem agrees_iff (r : Rom) (i : Nat) (dirs : List Bool) :
    agrees r i dirs = true ↔ ∀ k (hk : k < dirs.length), idBit r (i + k) = dirs[k] := by
  induction dirs generalizing i with
  | nil => simp [agrees]
  | cons c dirs ih =>
    rw [agrees, Bool.and_eq_true, ih, beq_iff_eq]
    constructor
    · rintro ⟨hfirst, hrest⟩ k hk
      cases k with
      | zero => exact hfirst
      | succ k =>
        have hindex : i + (k + 1) = i + 1 + k := by omega
        rw [hindex]
        exact hrest k (by simpa using hk)
    · intro h
      refine ⟨h 0 (by simp), fun k hk => ?_⟩
      rw [Nat.add_right_comm]
      exact h (k + 1) (by simpa using hk)

/-- The 64 identity bits are the whole identity (R64). -/
theorem rom_ext_idBit {r r' : Rom} (h : ∀ j, 1 ≤ j → j ≤ 64 → idBit r j = idBit r' j) : r = r' := by
  refine Vector.ext fun k hk => BitVec.eq_of_getLsbD_eq fun m hm => ?_
  have hbyte : (8 * k + m + 1 - 1) / 8 = k := by omega
  have hbit : (8 * k + m + 1 - 1) % 8 = m := by omega
  have hread : ∀ q : Rom, idBit q (8 * k + m + 1) = q[k].getLsbD m := fun q => by
    have hq : q[(8 * k + m + 1 - 1) / 8]? = some q[k] := by rw [hbyte, Vector.getElem?_eq_getElem hk]
    rw [idBit_of_getElem? hq, hbit]
  rw [← hread r, ← hread r']
  exact h _ (by omega) (by omega)

/-- Two identities that agree with the same 64 directions are one. -/
theorem eq_of_agrees {r r' : Rom} {dirs : List Bool} (h64 : dirs.length = 64) (h : agrees r 1 dirs = true)
    (h' : agrees r' 1 dirs = true) : r = r' := by
  refine rom_ext_idBit fun j h1 hj => ?_
  obtain ⟨k, rfl⟩ := Nat.exists_eq_add_of_le h1
  rw [(agrees_iff r 1 dirs).1 h k (by omega), (agrees_iff r' 1 dirs).1 h' k (by omega)]

/-- The identity being assembled agrees with the directions written into it. -/
theorem agrees_setIdBit {rom : Rom} {dirs : List Bool} (h : agrees rom 1 dirs = true) (hlen : dirs.length < 64)
    (d : Bool) : agrees (setIdBit rom (dirs.length + 1) d) 1 (dirs ++ [d]) = true := by
  obtain ⟨_, hwritten⟩ := identityBitWrittenReadsBack rom (dirs.length + 1) d (by omega) (by omega)
  have hkept : agrees (setIdBit rom (dirs.length + 1) d) 1 dirs = true := by
    rw [agrees_iff] at h ⊢
    intro k hk
    rw [hwritten (1 + k) (by omega) (by omega), if_neg (by omega), h k hk]
  rw [agrees_append, hkept, hwritten (1 + dirs.length) (by omega) (by omega), if_pos (Nat.add_comm ..)]
  simp

/-- Whatever the tie-break says, some device that takes part has the chosen bit: at a common bit all have it, and at a
discrepancy both bits have a device (R189, R191). -/
theorem exists_direction {part : List Rom} (ld : Nat) (prior : Rom) (i : Nat) (hpart : ∃ r, r ∈ part) :
    ∃ d, pureDir ld prior i (part.all fun r => idBit r i) (part.all fun r => !idBit r i) = some d ∧
      ∃ r ∈ part, idBit r i = d := by
  obtain ⟨r, hr⟩ := hpart
  cases ha : part.all fun r => idBit r i
  case true =>
    have hone : idBit r i = true := List.all_eq_true.1 ha r hr
    cases hb : part.all fun r => !idBit r i
    case true => simpa [hone] using List.all_eq_true.1 hb r hr
    case false => exact ⟨true, rfl, r, hr, hone⟩
  case false =>
    obtain ⟨r₀, hr₀, hzero⟩ := List.all_eq_false.1 ha
    cases hb : part.all fun r => !idBit r i
    case true => exact ⟨false, rfl, r₀, hr₀, by simpa using hzero⟩
    case false =>
      obtain ⟨r₁, hr₁, hone⟩ := List.all_eq_false.1 hb
      refine ⟨_, rfl, ?_⟩
      cases chooseDir i ld (idBit prior i)
      · exact ⟨r₀, hr₀, by simpa using hzero⟩
      · exact ⟨r₁, hr₁, by simpa using hone⟩

/-! ## The pass over the bus (R198) -/

/-- With a device taking part, the last `k` indexes of a pass end with the identity of a device on the bus. -/
theorem wiredAnd_pass {p : Params} (hp : paramsOk p = true) (ld : Nat) (prior : Rom) {devices : List Rom} {k : Nat}
    {dirs : List Bool} {wire : List WireEvent} {rom : Rom} (hk : dirs.length + k = 64)
    (hwire : SearchHistory p wire dirs) (hrom : agrees rom 1 dirs = true)
    (hpart : ∃ r, r ∈ participants devices dirs) :
    ∃ pairs, pairs.length = k ∧ BusAnswers p ld prior (dirs.length + 1) (.wiredAnd devices) wire pairs ∧
      ∃ r ∈ devices, ∀ lz, ∃ lz', purePass ld prior (dirs.length + 1) rom lz pairs = some (r, lz') := by
  induction k generalizing dirs wire rom with
  | zero =>
    obtain ⟨r, hr⟩ := hpart
    obtain ⟨hdevice, hagrees⟩ := List.mem_filter.1 hr
    obtain rfl : rom = r := eq_of_agrees hk hrom hagrees
    exact ⟨[], rfl, trivial, rom, hdevice, fun lz => ⟨lz, rfl⟩⟩
  | succ k ih =>
    obtain ⟨d, hd, r, hr, hbit⟩ := exists_direction ld prior (dirs.length + 1) hpart
    obtain ⟨hdevice, hagrees⟩ := List.mem_filter.1 hr
    have hstays : r ∈ participants devices (dirs ++ [d]) := by
      refine List.mem_filter.2 ⟨hdevice, ?_⟩
      rw [agrees_append, hagrees, Nat.add_comm, hbit]
      simp
    have hlen : (dirs ++ [d]).length = dirs.length + 1 := by simp
    obtain ⟨pairs, hpairs, hbus, r', hr', hpass⟩ := ih (by omega) (hwire.bit _ _ d) (agrees_setIdBit hrom (by omega) d)
      ⟨r, hstays⟩
    rw [hlen] at hbus hpass
    refine ⟨(_, _) :: pairs, congrArg (· + 1) hpairs, ⟨_, _, _, decodeSym_wiredSym p _, decodeSym_wiredSym p _,
      readsPair_wiredAnd hp hwire devices, fun d' hd' => ?_⟩, r', hr', fun lz => ?_⟩
    · obtain rfl := Option.some.inj (hd.symm.trans hd')
      exact hbus
    · rw [purePass_direction _ _ _ hd]
      exact hpass _

/-- Settles O36: the bus shows presence, its answers lead the pass to a device, and the run computes that pass. -/
theorem searchReturnsADeviceOnTheBus : Obligations.SearchReturnsADeviceOnTheBus := by
  intro s link devices ts hok hs hi hf hl hflag hsym hne hbus hp ht
  have he : busResetEcho s.params s.bus s.wire = (some 0xE0#8, .wiredAnd devices) := by
    simp [hbus, busResetEcho, hne]
  have hpart : ∃ r, r ∈ participants devices [] := by
    obtain ⟨r, hr⟩ := List.exists_mem_of_ne_nil devices hne
    exact ⟨r, List.mem_filter.2 ⟨hr, rfl⟩⟩
  obtain ⟨pairs, h64, hanswers, rom, hdevice, hpass⟩ := wiredAnd_pass (k := 64) (rom := s.romWork) hok s.lastDiscrepancy
    s.lastRom rfl (searchHistory_start s.params s.wire 0xE0#8) rfl hpart
  obtain ⟨lz, hcomputed⟩ := hpass 0
  obtain ⟨t, hrun, hret⟩ := run_search hs hi hf hl hflag hsym.symm he hp ht h64 hanswers
  obtain ⟨hrOk, hrRom, hlastRom, _⟩ : PassResult t (some (rom, lz)) := hcomputed ▸ hret.result
  exact ⟨t, hrun, hret.seq, hrOk, hrRom ▸ hdevice, hlastRom.trans hrRom.symm⟩

end Sys2Proof.Proofs
end

section
/-! SUPPORT. `INIT` and the completion events (44_init_and_events.md R211 to R216): the two checks of `INIT`, the
registers its effect writes, and when an event's link is the bound one. -/

namespace Sys2Proof.Proofs

open Sys2Proof.Machine Sys2Proof.Laws

/-! ## `INIT` (R211, R213) -/

/-- Without a written `LINK_IN` the first check of `INIT` fails (R211). -/
theorem exec_init_unwritten {s : State} (hs : s.seq = .idle) (hl : s.linkIn = none) :
    exec .init s = .next { s with fault := some (s.fault.getD .operandUnwritten) } := by
  have hunwritten : (checkLinkIn s).1 = false := by simp [checkLinkIn, hl]
  rw [exec_init]
  exact command_check_failed hs hunwritten

/-- With `LINK_IN` written, what is left of the checks of `INIT` is that nothing is outstanding (R213). -/
theorem exec_init_written {s : State} (hl : s.linkIn.isSome = true) :
    exec .init s = command [(!s.inited || isIdle s, .initWhileBusy)] initEffect s := by
  rw [exec_init, command_check_passed (c := checkLinkIn s) hl]

theorem exec_init_busy {s : State} (hs : s.seq = .idle) (hl : s.linkIn.isSome = true) (hi : s.inited = true)
    (hbusy : isIdle s = false) : exec .init s = .next { s with fault := some (s.fault.getD .initWhileBusy) } := by
  have houtstanding : (!s.inited || isIdle s) = false := by simp [hi, hbusy]
  rw [exec_init_written hl]
  exact command_check_failed hs houtstanding

theorem exec_init_completes {s : State} (hs : s.seq = .idle) (hl : s.linkIn.isSome = true)
    (hfree : s.inited = false ∨ isIdle s = true) : exec .init s = .next (initEffect s) := by
  have hnothing : (!s.inited || isIdle s) = true := by simpa using hfree
  rw [exec_init_written hl, command_check_passed hnothing]
  exact command_ok [] initEffect s hs firstViolation_nil

/-- `INIT` gives each register of the rule its value and touches only `timing`, the two buffers and the counter of free
values besides (R211, R44). -/
theorem initEffect_frame {s : State} {link : Link} (hl : s.linkIn = some link) :
    initEffect s = { s with
      inited := true, boundLink := some link
      lastDiscrepancy := 0, lastDeviceFlag := false, lastRom := Vector.replicate 8 0#8
      txDone := true, rxDone := true, txLen := 0, rxLen := 0, txInflight := none, rxInflight := none
      rOk := false, rBit := false, rPresence := .timeout, rRom := Vector.replicate 8 0#8
      seq := .idle
      timing := (initEffect s).timing, txBuf := (initEffect s).txBuf, rxBuf := (initEffect s).rxBuf
      draws := (initEffect s).draws } := by
  rw [← hl]
  rfl

/-- Settles O9: the two checks fail one after the other, and behind them stands the effect of `INIT`. -/
theorem initBindsAndResets : Obligations.InitBindsAndResets := by
  intro s hs
  refine ⟨exec_init_unwritten hs, exec_init_busy hs, fun link hl hfree => ?_⟩
  have hwritten : s.linkIn.isSome = true := by simp [hl]
  exact ⟨initEffect s, exec_init_completes hs hwritten hfree, initEffect_frame hl⟩

/-! ## The completion events (R215, R216) -/

theorem linkMatches_iff {link : Link} {s : State} :
    linkMatches link s = true ↔ s.inited = true ∧ s.boundLink = some link := by
  simp [linkMatches]

/-- Before `INIT`, or with another link bound, an event's link matches nothing (R21, R22, R215). -/
theorem linkMatches_eq_false {link : Link} {s : State} (h : s.inited = false ∨ s.boundLink ≠ some link) :
    linkMatches link s = false := by
  rw [Bool.eq_false_iff, ne_eq, linkMatches_iff]
  rintro ⟨hi, hb⟩
  exact h.elim (by simp [hi]) (· hb)

/-- Settles O17: an event joins to its flag whether its link is the bound one, which is 1 in the first clause and 0 in
the second. -/
theorem completionEventsSetOnlyTheirFlag : Obligations.CompletionEventsSetOnlyTheirFlag := by
  intro s link
  rw [exec_rxComplete, exec_txComplete]
  constructor
  · intro hi hb
    rw [linkMatches_iff.2 ⟨hi, hb⟩, Bool.or_true, Bool.or_true]
    exact ⟨rfl, rfl⟩
  · intro h
    rw [linkMatches_eq_false h, Bool.or_false, Bool.or_false]
    exact ⟨rfl, rfl⟩

end Sys2Proof.Proofs
end

section
/-! SUPPORT. The host agents (46_host_clients.md R231 to R249): the temperature decode, what a `Poll` does by the
device's state and the arbiter's owner, and how the calls that issue a blocking command end, before and after `INIT`. -/

namespace Sys2Proof.Proofs

open Sys2Proof.Machine Sys2Proof.Laws

/-! ## The temperature (R247) -/

/-- The 16-bit value `u` of R247. -/
theorem toNat_append_bytes (msb lsb : Byte) : (msb ++ lsb).toNat = 256 * msb.toNat + lsb.toNat := by
  rw [BitVec.toNat_append, ← Nat.shiftLeft_add_eq_or_of_lt lsb.isLt, Nat.shiftLeft_eq, Nat.mul_comm]

/-- Settles O53: `u` is below 32768 exactly when `msb` is below 128. -/
theorem temperatureIsTwosComplement : Obligations.TemperatureIsTwosComplement := by
  intro msb lsb
  have hlsb : lsb.toNat < 256 := lsb.isLt
  rw [decodeTemperature, BitVec.toInt_eq_toNat_cond, toNat_append_bytes]
  by_cases hsign : msb.toNat < 128
  · rw [if_pos (by omega), if_pos hsign]
    omega
  · rw [if_neg (by omega), if_neg hsign]
    omega

/-! ## The Device Contexts (R231, R233) -/

section Device

variable {s : State} {d : Nat} {x : Device}

theorem updateDevice_device (f : Device → Device) (hx : s.clients.devices[d]? = some x) :
    (updateDevice d f s).clients.devices[d]? = some (f x) := by
  simp [hx]

theorem updateDevice_other (f : Device → Device) (s : State) {k : Nat} (hk : k ≠ d) :
    (updateDevice d f s).clients.devices[k]? = s.clients.devices[k]? := by
  simp [hk.symm]

end Device

/-- Settles O54: `Measure` is one update of one Device Context. -/
theorem measureOnlyActsOnIdle : Obligations.MeasureOnlyActsOnIdle := by
  intro s d x hx
  exact ⟨measureOp d s, rfl, rfl, updateDevice_device _ hx, fun k hk => updateDevice_other _ s hk⟩

/-! ## `Poll` (R234 to R245) -/

section Poll

variable {s : State} {d : Nat} {x : Device}

theorem ownerAllows_iff : ownerAllows d s = true ↔ s.clients.owner = none ∨ s.clients.owner = some d := by
  simp [ownerAllows]

theorem pollDevice_idle (hx : s.clients.devices[d]? = some x) (hidle : x.state = .idle) : pollDevice d s = s := by
  simp only [pollDevice, hx, if_pos hidle]

theorem pollDevice_error (hx : s.clients.devices[d]? = some x) (herror : x.state = .error) :
    pollDevice d s = pollError d x s := by
  simp [pollDevice, hx, herror]

/-- The owner check of every state but `Idle` and `Error` (R242). -/
theorem pollDevice_active (hx : s.clients.devices[d]? = some x) (hidle : x.state ≠ .idle) (herror : x.state ≠ .error) :
    pollDevice d s = if ownerAllows d s then pollAction d x s else s := by
  simp only [pollDevice, hx, if_neg hidle, if_neg herror]

theorem pollError_externalRestart (hpolicy : s.params.errorPolicy = .externalRestart) : pollError d x s = s := by
  simp only [pollError, hpolicy]

theorem stayGuard_busy (act : State → State) (hi : s.inited = true) (hbusy : isIdle s = false) :
    stayGuard act s = s := by
  rw [stayGuard, withFlags_eq act id s hi, hbusy]
  rfl

/-- While a completion flag is 0 only `WaitAccess` and `WaitConversion`, which have no stay guard, can move (R236). -/
theorem pollAction_busy (hi : s.inited = true) (hbusy : isIdle s = false) (haccess : x.state ≠ .waitAccess)
    (hwait : x.state ≠ .waitConversion) : pollAction d x s = s := by
  cases hstate : x.state with
  | waitAccess => exact absurd hstate haccess
  | waitConversion => exact absurd hstate hwait
  | _ => simp only [pollAction, hstate, stayGuard_busy _ hi hbusy]

theorem pollWaitConversion_below (hbelow : elapsed x s < s.params.convTicks) : pollWaitConversion d x s = s :=
  if_neg (Nat.not_le.2 hbelow)

/-- At or above the wait the device moves on, and takes the bus under `HOST_RECLAIM` (R240, R244). -/
theorem pollWaitConversion_reached (hreached : s.params.convTicks ≤ elapsed x s) :
    pollWaitConversion d x s =
      setDevState d .reset2 (setOwner (if s.params.hostReclaim = true then some d else s.clients.owner) s) := by
  rw [pollWaitConversion, if_pos hreached]
  split <;> rfl

end Poll

/-- Settles O55: an `Idle` device needs no bus, one in `Error` follows its policy, and in any other state the owner
check fails. -/
theorem pollDefersToTheOwner : Obligations.PollDefersToTheOwner := by
  intro s d o x hx howner hne hpolicy
  refine congrArg Host.Outcome.next ?_
  by_cases hidle : x.state = .idle
  · exact pollDevice_idle hx hidle
  · by_cases herror : x.state = .error
    · rw [pollDevice_error hx herror]
      exact pollError_externalRestart (hpolicy.resolve_left (not_not_intro herror))
    · have hdenied : ¬ownerAllows d s = true := by simp [ownerAllows_iff, howner, hne]
      rw [pollDevice_active hx hidle herror, if_neg hdenied]

/-- Settles O56: none of the ten states is one of those that can move while a flag is 0. -/
theorem pollStaysWhileTransferInFlight : Obligations.PollStaysWhileTransferInFlight := by
  intro s d x hx hi hbusy hstate
  obtain ⟨hidle, herror, haccess, hwait⟩ :
      x.state ≠ .idle ∧ x.state ≠ .error ∧ x.state ≠ .waitAccess ∧ x.state ≠ .waitConversion := by
    refine ⟨fun h => ?_, fun h => ?_, fun h => ?_, fun h => ?_⟩ <;> simp [h] at hstate
  refine congrArg Host.Outcome.next ?_
  rw [pollDevice_active hx hidle herror, pollAction_busy hi hbusy haccess hwait, ite_self]

/-- Settles O57: the owner check passes, and the wait decides between the two equations of `WaitConversion`. -/
theorem conversionWaitBoundary : Obligations.ConversionWaitBoundary := by
  intro s d x hx hstate howner _
  have hpoll : pollDevice d s = pollWaitConversion d x s := by
    rw [pollDevice_active hx (by simp [hstate]) (by simp [hstate]), if_pos (ownerAllows_iff.2 howner)]
    simp only [pollAction, hstate]
  refine ⟨fun hbelow => ?_, fun hreached => ?_⟩
  · exact congrArg Host.Outcome.next (hpoll.trans (pollWaitConversion_below hbelow))
  · exact ⟨_, congrArg Host.Outcome.next (hpoll.trans (pollWaitConversion_reached hreached)), rfl, rfl,
      updateDevice_device _ hx⟩

/-! ## The ends of the calls (R219, R238, R246, R249) -/

theorem withBit_uninit (v : View) (act : Bool → State → State) (refused : State → State) {s : State}
    (h : s.inited = false) : withBit v act refused s = refused (raise .notInitialised s) :=
  readThen_uninit v _ refused s h

theorem withPresence_uninit (act : Presence → State → State) (refused : State → State) {s : State}
    (h : s.inited = false) : withPresence act refused s = refused (raise .notInitialised s) :=
  readThen_uninit .rPresence _ refused s h

section Ends

variable {s : State} {d : Nat}

theorem pollResetDoneOp_ok (hi : s.inited = true) (hp : s.rPresence = .ok) :
    pollResetDoneOp d s = updateDevice d (fun x => { x with presence := .ok, state := afterReset x.state .ok }) s := by
  simp only [pollResetDoneOp, withPresence_eq _ _ s hi, hp, if_true]

/-- A bus error releases the bus (R243). -/
theorem pollResetDoneOp_failed (hi : s.inited = true) (hp : s.rPresence ≠ .ok) :
    pollResetDoneOp d s =
      setOwner none (updateDevice d (fun x => { x with presence := s.rPresence, state := .error }) s) := by
  simp only [pollResetDoneOp, withPresence_eq _ _ s hi, afterReset, if_neg hp]

theorem searchNextDoneOp_inited (hi : s.inited = true) :
    searchNextDoneOp d s = returns (some s.rOk)
      (if s.rOk = true then updateDevice d (fun x => { x with address := s.rRom }) s else s) := by
  rw [searchNextDoneOp, withBit_rOk _ _ s hi, withRom_eq _ s hi]

theorem needPresenceOp_ok (rest : Nat) (hi : s.inited = true) (hp : s.rPresence = .ok) :
    needPresenceOp d rest s = copyPresence d s.rPresence s := by
  rw [needPresenceOp, withPresence_eq _ _ s hi, if_pos hp]

/-- A bus error ends the routine with false (R246, R270). -/
theorem needPresenceOp_failed (rest : Nat) (hi : s.inited = true) (hp : s.rPresence ≠ .ok) :
    needPresenceOp d rest s = abandon rest (some false) (copyPresence d s.rPresence s) := by
  rw [needPresenceOp, withPresence_eq _ _ s hi, if_neg hp]

theorem setPrecisionOp_refused {x : Device} {bits : Nat} (hx : s.clients.devices[d]? = some x)
    (hbits : bits < 9 ∨ 12 < bits) : setPrecisionOp d bits s = returns (some false) s := by
  have hrange : ¬(9 ≤ bits ∧ bits ≤ 12) := by omega
  simp only [setPrecisionOp, hx, if_neg hrange]

end Ends

/-- Settles O58: the read of `R_PRESENCE` gives the outcome or is refused, and the outcome picks the next state. -/
theorem failedResetReleasesTheBus : Obligations.FailedResetReleasesTheBus := by
  intro s d x hx _
  refine ⟨fun hi => ?_, fun hi => ?_⟩
  · by_cases hp : s.rPresence = .ok
    · exact ⟨_, congrArg Host.Outcome.next (pollResetDoneOp_ok hi hp),
        fun _ => ⟨rfl, updateDevice_device _ hx⟩, fun hne => absurd hp hne⟩
    · exact ⟨_, congrArg Host.Outcome.next (pollResetDoneOp_failed hi hp),
        fun hok => absurd hok hp, fun _ => ⟨rfl, updateDevice_device _ hx⟩⟩
  · rw [← raise_eq]
    exact congrArg Host.Outcome.next (withPresence_uninit _ id hi)

/-- The identity reaches the device exactly when `R_OK` is 1 (R249). -/
theorem searchNextDone_returns {s : State} {d : Nat} {x : Device} (hx : s.clients.devices[d]? = some x)
    (hi : s.inited = true) :
    ∃ t, hostOp (.searchNextDone d) s = .next t ∧ t.clients.ret = some s.rOk ∧
      t.clients.devices[d]? = some (if s.rOk = true then { x with address := s.rRom } else x) := by
  refine ⟨_, congrArg Host.Outcome.next (searchNextDoneOp_inited hi), rfl, ?_⟩
  by_cases hok : s.rOk = true
  · rw [if_pos hok, if_pos hok]
    exact updateDevice_device _ hx
  · rw [if_neg hok, if_neg hok]
    exact hx

theorem needPresence_returns {s : State} {d : Nat} {x : Device} (rest : Nat) (hx : s.clients.devices[d]? = some x)
    (hi : s.inited = true) :
    ∃ t, hostOp (.needPresence d rest) s = .next t ∧
      t.clients.devices[d]? = some { x with presence := s.rPresence } ∧
      (s.rPresence = .ok → t.program = s.program ∧ t.clients.ret = s.clients.ret) ∧
      (s.rPresence ≠ .ok → t.program = s.program.drop rest ∧ t.clients.ret = some false) := by
  by_cases hp : s.rPresence = .ok
  · exact ⟨_, congrArg Host.Outcome.next (needPresenceOp_ok rest hi hp), updateDevice_device _ hx,
      fun _ => ⟨rfl, rfl⟩, fun hne => absurd hp hne⟩
  · exact ⟨_, congrArg Host.Outcome.next (needPresenceOp_failed rest hi hp), updateDevice_device _ hx,
      fun hok => absurd hok hp, fun _ => ⟨rfl, rfl⟩⟩

/-- Settles O60: how each call ends after `INIT`, its refused read before `INIT`, and the range of a resolution. -/
theorem administrativeCallsReturn : Obligations.AdministrativeCallsReturn := by
  intro s d x hx
  refine ⟨fun hi => ⟨searchNextDone_returns hx hi, fun rest => needPresence_returns rest hx hi⟩,
    fun hi => ⟨?_, fun rest => ?_⟩, fun bits hbits => ?_⟩
  · have hrefused : searchNextDoneOp d s = returns none (raise .notInitialised s) := withBit_uninit .rOk _ _ hi
    rw [raise_eq] at hrefused
    exact congrArg Host.Outcome.next hrefused
  · have hrefused : needPresenceOp d rest s = abandon rest none (raise .notInitialised s) :=
      withPresence_uninit _ _ hi
    rw [raise_eq] at hrefused
    exact congrArg Host.Outcome.next hrefused
  · exact congrArg Host.Outcome.next (setPrecisionOp_refused hx hbits)

end Sys2Proof.Proofs
end

section
/-! SUPPORT. Faults and interrupts (60_exceptions.md R272, R274, R281, R283; 30_encoding.md R95): a command at `IDLE`
has a next state, a delivered event touches its flag alone, and a blocking command sets no mark. -/

namespace Sys2Proof.Proofs

open Sys2Proof.Machine Sys2Proof.Laws

/-! ## No step stops (R95, R272) -/

/-- At `IDLE` a command answers with its mark or with its effect. -/
theorem command_completes (cs : List Check) (f : State → State) {s : State} (hs : s.seq = .idle) :
    ∃ t, command cs f s = .next t := by
  cases hv : firstViolation cs with
  | none => exact ⟨_, command_ok cs f s hs hv⟩
  | some r => exact ⟨_, command_violation cs f s r hs hv⟩

theorem exec_completes (i : Instr) {s : State} (hs : s.seq = .idle) : ∃ t, exec i s = .next t := by
  cases i with
  | init => rw [exec_init]; exact command_completes _ _ hs
  | writeBit b => rw [exec_writeBit]; exact command_completes _ _ hs
  | writeByte => rw [exec_writeByte]; exact command_completes _ _ hs
  | writeAddr n => rw [exec_writeAddr]; exact command_completes _ _ hs
  | readIssue n => rw [exec_readIssue]; exact command_completes _ _ hs
  | readBit => rw [exec_readBit]; exact command_completes _ _ hs
  | reset => rw [exec_reset]; exact command_completes _ _ hs
  | searchNext => rw [exec_searchNext]; exact command_completes _ _ hs
  | rxComplete link => exact exec_event_completes s rfl
  | txComplete link => exact exec_event_completes s rfl

theorem presentCommand_completes (w : Byte) {s : State} (hs : s.seq = .idle) : ∃ t, presentCommand w s = .next t := by
  cases hd : decodeCommand w with
  | ok i =>
    rw [presentCommand_decoded s hd]
    exact exec_completes i hs
  | error e => exact ⟨raise .illegalCommand s, by simp only [presentCommand, hd, hs, if_true]⟩

theorem hostOp_completes (op : HostOp) {s : State} (hs : s.seq = .idle) : ∃ t, hostOp op s = .next t := by
  obtain ⟨w, _, hw⟩ | ⟨t, ht, _⟩ := hostOp_cases op s
  · rw [hw]
    exact presentCommand_completes w hs
  · exact ⟨t, ht⟩

theorem hostStep_completes {s : State} (hs : s.seq = .idle) : ∃ t, hostStep s = .next t := by
  unfold hostStep
  split
  · exact ⟨s, rfl⟩
  next op rest _ => exact hostOp_completes op hs

/-- The host moves only at `IDLE`; while a command runs the turn is the sequencer's (R40, R284). -/
theorem pollingStep_completes (s : State) : ∃ t, pollingStep s = .next t := by
  unfold pollingStep
  split
  next hs => exact hostStep_completes hs
  · exact ⟨phaseStep s, rfl⟩

theorem agentStep_completes (u : Turn) (s : State) : ∃ t, agentStep u s = .next t := by
  cases u with
  | polling => exact pollingStep_completes s
  | linkTx => exact ⟨linkTxStep s, rfl⟩
  | linkRx => exact ⟨linkRxStep s, rfl⟩
  | txEvent => exact ⟨_, deliverTx_eq s⟩
  | rxEvent => exact ⟨_, deliverRx_eq s⟩
  | event w => exact ⟨_, deliverEvent_eq w s⟩
  | tick => exact ⟨tickStep s, rfl⟩

/-- Settles O43: a step is the turn of some agent, and only a command handed over outside `IDLE` would stop. -/
theorem stepNeverStops : Obligations.StepNeverStops :=
  fun s => agentStep_completes (nextTurn s) (afterTurn s)

/-! ## The interrupt context (R218, R281) -/

/-- Only the completion flags and the pending events may differ, and no flag goes back to 0. -/
structure OnlySetsFlags (s t : State) : Prop where
  frame : t = { s with
    txDone := t.txDone, rxDone := t.rxDone, txPending := t.txPending, rxPending := t.rxPending }
  tx : s.txDone = true → t.txDone = true
  rx : s.rxDone = true → t.rxDone = true

theorem OnlySetsFlags.refl (s : State) : OnlySetsFlags s s := ⟨rfl, id, id⟩

/-- A transmit event joins to its flag whether its link matches. -/
theorem onlySetsFlags_tx (s : State) (p : Option Link) (b : Bool) :
    OnlySetsFlags s { s with txPending := p, txDone := s.txDone || b } :=
  ⟨rfl, fun h => by simp [h], id⟩

/-- The receive direction. -/
theorem onlySetsFlags_rx (s : State) (p : Option Link) (b : Bool) :
    OnlySetsFlags s { s with rxPending := p, rxDone := s.rxDone || b } :=
  ⟨rfl, id, fun h => by simp [h]⟩

theorem deliverTx_onlySetsFlags {s t : State} (h : deliverTx s = .next t) : OnlySetsFlags s t := by
  rw [deliverTx_eq] at h
  cases h
  split
  · exact .refl s
  · exact onlySetsFlags_tx s none _

theorem deliverRx_onlySetsFlags {s t : State} (h : deliverRx s = .next t) : OnlySetsFlags s t := by
  rw [deliverRx_eq] at h
  cases h
  split
  · exact .refl s
  · exact onlySetsFlags_rx s none _

theorem deliverEvent_onlySetsFlags {w : EvtWord} {s t : State} (h : deliverEvent w s = .next t) :
    OnlySetsFlags s t := by
  rw [deliverEvent_eq] at h
  cases h
  split
  · split
    · exact onlySetsFlags_tx s s.txPending _
    · exact onlySetsFlags_rx s s.rxPending _
  · exact .refl s

/-- Settles O45: each of the three event turns is a delivery on the state with the turn taken off. -/
theorem eventsTouchOnlyTheFlags : Obligations.EventsTouchOnlyTheFlags := by
  intro s t tn w ts htn hturns hstep
  rw [step_of_turn s tn ts hturns] at hstep
  have hflags : OnlySetsFlags { s with turns := ts } t := by
    obtain rfl | rfl | rfl := htn
    · exact deliverTx_onlySetsFlags hstep
    · exact deliverRx_onlySetsFlags hstep
    · exact deliverEvent_onlySetsFlags hstep
  exact ⟨hflags.frame, hflags.tx, hflags.rx⟩

/-! ## The two orders of delivery (R283) -/

theorem step_txEvent_joins {s : State} {ts : List Turn} {link : Link} (ht : s.turns = .txEvent :: ts)
    (hl : s.txPending = some link) :
    step s = .next { s with turns := ts, txPending := none, txDone := s.txDone || linkMatches link s } :=
  (step_txEvent ht hl).trans (exec_txComplete link _)

theorem step_rxEvent_joins {s : State} {ts : List Turn} {link : Link} (ht : s.turns = .rxEvent :: ts)
    (hl : s.rxPending = some link) :
    step s = .next { s with turns := ts, rxPending := none, rxDone := s.rxDone || linkMatches link s } :=
  (step_rxEvent ht hl).trans (exec_rxComplete link _)

/-- Settles O23: each delivery writes its own direction alone, and neither reads what the other writes. -/
theorem completionOrderDoesNotMatter : Obligations.CompletionOrderDoesNotMatter := by
  intro s tl rl ts htx hrx
  have htxFirst := step_txEvent_joins (s := { s with turns := .txEvent :: .rxEvent :: ts }) rfl htx
  have hrxFirst := step_rxEvent_joins (s := { s with turns := .rxEvent :: .txEvent :: ts }) rfl hrx
  exact ⟨_, run_trans (run_one htxFirst) (run_one (step_rxEvent_joins rfl hrx)),
    run_trans (run_one hrxFirst) (run_one (step_txEvent_joins rfl htx))⟩

/-! ## Inside a blocking command (R274) -/

/-- The one phase move that sets the mark is a transfer of a search at another timing than data-rate. -/
theorem phaseMove_fault {s t : State} (hm : PhaseMove s t) :
    (inSearch s.seq = true ∧ s.timing ≠ .dataRate) ∨ t.fault = s.fault := by
  cases hm with
  | timingViolated hs ht => exact .inl ⟨hs, ht⟩
  | _ => exact .inr rfl

theorem linkTxStep_fault (s : State) : (linkTxStep s).fault = s.fault := by
  unfold linkTxStep
  split <;> rfl

theorem linkRxStep_fault (s : State) : (linkRxStep s).fault = s.fault := by
  unfold linkRxStep
  split <;> rfl

theorem OnlySetsFlags.fault {s t : State} (h : OnlySetsFlags s t) : t.fault = s.fault := by
  rw [h.frame]

/-- A step with a command running changes the mark only by a search's timing violation: the host is not on turn, and
no other agent raises anything. -/
theorem step_fault_of_running {s t : State} (hs : s.seq ≠ .idle) (hstep : step s = .next t) :
    (inSearch s.seq = true ∧ s.timing ≠ .dataRate) ∨ t.fault = s.fault := by
  obtain ⟨u, hu, hcases⟩ := step_cases s t hstep
  have hseq : u.seq = s.seq := by rw [hu]
  have htiming : u.timing = s.timing := by rw [hu]
  have hfault : u.fault = s.fault := by rw [hu]
  rw [← hseq, ← htiming, ← hfault]
  obtain ⟨hidle, _⟩ | ⟨_, rfl⟩ | rfl | rfl | hd | hd | ⟨w, hd⟩ | rfl := hcases
  · exact absurd (hseq.symm.trans hidle) hs
  · exact phaseMove_fault (phaseMove_phaseStep u)
  · exact .inr (linkTxStep_fault u)
  · exact .inr (linkRxStep_fault u)
  · exact .inr (deliverTx_onlySetsFlags hd).fault
  · exact .inr (deliverRx_onlySetsFlags hd).fault
  · exact .inr (deliverEvent_onlySetsFlags hd).fault
  · exact .inr rfl

/-- Settles O50: past its reset phase a search runs at data-rate timing, so its one violation is shut out. -/
theorem blockingCommandsRaiseNothing : Obligations.BlockingCommandsRaiseNothing := by
  intro s t hinv hs hstep
  obtain ⟨hsearch, htiming⟩ | hkept := step_fault_of_running hs hstep
  · exact absurd (hinv.dataTiming (.inl hsearch)) htiming
  · exact hkept

end Sys2Proof.Proofs
end
